-- ==== Sys2Proof/Word.lean ====
section
/-! DEFINITION. The word types of the block (spec/00_scope.md R12: every value is unsigned). -/

namespace Sys2Proof

/-- A byte: a buffer cell, a frame byte, a node address (R12). -/
abbrev Byte := BitVec 8

/-- A host command word or a status word (R35, R81). -/
abbrev Word32 := BitVec 32

/-- A frame as it crosses a frame port (R35, R53). -/
abbrev PortFrame := BitVec 64

end Sys2Proof
end

