-- ==== Sys2Proof/Config.lean ====
section
/-! DEFINITION. The implementation parameters of spec/00_scope.md section 4, and the open timing parameters of R245. -/

namespace Sys2Proof

/-- `SF_MAX`: the longest message one Single frame carries (R7). -/
def Config.sfMax : Nat := 6

/-- `FF_DATA`: the message bytes of a First frame (R7). -/
def Config.ffData : Nat := 5

/-- `CF_DATA`: the most message bytes a Consecutive frame carries (R7). -/
def Config.cfData : Nat := 6

/-- The shortest length a First frame may announce (R161). -/
def Config.ffMin : Nat := 7

/-- `MSG_MAX`: the longest logical message (R8). -/
def Config.msgMax : Nat := 4095

/-- `FILL`: the value of every padding byte sent (R9). -/
def Config.fill : Byte := 0xFF#8

/-- `BUF_SIZE`: the cells of each message buffer (R11). -/
def Config.bufSize : Nat := 4096

/-- What `LAT_CMD` has above its least value 1: open (R245, U11; log entry 10). -/
opaque Config.latCmdAbove : Nat

/-- What `LAT_TX_FRAME` has above its least value 1: open (R245, U11; log entry 10). -/
opaque Config.latTxFrameAbove : Nat

/-- What `LAT_RX_FRAME` has above its least value 1: open (R245, U11; log entry 10). -/
opaque Config.latRxFrameAbove : Nat

/-- `LAT_CMD`, the cycles from a command word to its response, at least 1 (R245). No rule reads it. -/
def Config.latCmd : Nat := Config.latCmdAbove + 1

/-- `LAT_TX_FRAME`, the least cycles between two frames offered, at least 1 (R245). No rule reads it. -/
def Config.latTxFrame : Nat := Config.latTxFrameAbove + 1

/-- `LAT_RX_FRAME`, the least cycles between two frames consumed, at least 1 (R245). No rule reads it. -/
def Config.latRxFrame : Nat := Config.latRxFrameAbove + 1

end Sys2Proof
end

