-- ==== Sys2Proof/Machine/State.lean ====
section
/-! DEFINITION. The state of the block (spec/10_state.md R20: the complete list of registers, the two buffers, the response
registers) and the environment the interleaving of agents needs (R35, R44, R45). -/

namespace Sys2Proof.Machine

/-- `TX_STATE` (R21; log entry 14). -/
inductive TxState where
  | idle
  | sending
deriving DecidableEq, Repr

/-- `RX_STATE` (R27; log entry 14). -/
inductive RxState where
  | awaitFs
  | awaitCf
  | complete
  | failed
deriving DecidableEq, Repr

/-- The code space of `TX_ERR` and `RX_ERR` (R200; log entry 14). -/
inductive ErrCode where
  | none
  | payloadTooLarge
  | framing
  | sequence
deriving DecidableEq, Repr

/-- A transport error a step can raise (R200). -/
inductive TransportError where
  | payloadTooLarge
  | framing
  | sequence
deriving DecidableEq, Repr

/-- What the environment presents on the input ports at one step (R35), one agent's step at a time (R5, R209; log
entries 1 and 9). -/
inductive Input where
  /-- `rst = 1`; the other ports carry what they may, and R231 says it is ignored (log entry 12). -/
  | reset (cmd : Option Word32) (ltxReady lrxValid : Bool)
  /-- `cmd_valid = 1` with this word. -/
  | command (w : Word32)
  /-- `ltx_ready = 1`. -/
  | linkReady
  /-- The Link's turn to offer: `lrx_valid = 1` with the next frame of its queue, if it has one. -/
  | linkOffer
deriving DecidableEq, Repr

/-- A message buffer as data: the written cells, indices strictly rising; a cell not listed is unwritten (R33, R34). -/
abbrev Memory := List Host.Cell

structure State where
  /-- `TX_STATE` (R21). -/
  txState : TxState
  /-- `TX_ERR` (R22). -/
  txErr : ErrCode
  /-- `TX_DONE` (R23). -/
  txDone : Bool
  /-- `TX_LEN` (R24). -/
  txLen : BitVec 16
  /-- `TX_NAD` (R25). -/
  txNad : Byte
  /-- `TX_FRAME` (R26). -/
  txFrame : BitVec 10
  /-- `RX_STATE` (R27). -/
  rxState : RxState
  /-- `RX_ERR` (R28). -/
  rxErr : ErrCode
  /-- `RX_TOTAL` (R29). -/
  rxTotal : BitVec 12
  /-- `RX_REMAINING` (R30). -/
  rxRemaining : BitVec 12
  /-- `RX_SEQ` (R31). -/
  rxSeq : BitVec 4
  /-- `RSP_OK` (R36). -/
  rspOk : Bool
  /-- `RSP_DATA` (R36). -/
  rspData : Byte
  /-- `TXBUF` (R33). -/
  txbuf : Memory
  /-- `RXBUF` (R34). -/
  rxbuf : Memory
  /-- The model's own: what the environment presents at the coming steps, the next first (log entry 1). -/
  inputs : List Input
  /-- The model's own: the frames the Link will offer, the next first (R44; log entry 3). -/
  linkIn : List PortFrame
  /-- The model's own: the frames the Link has accepted, the oldest first (R44; log entries 3 and 13). -/
  linkOut : List PortFrame
deriving DecidableEq, Repr

/-- Why a step stops. -/
inductive Fault where
  /-- `UnwrittenRead` (R16, R234): raised by a Framer step or an RXB_RD that reads a cell nothing has written since reset.
  Safe: the hardware goes on with an unspecified byte (log entry 4). -/
  | unwrittenRead
  /-- Raised by a Framer step where `FrameK` is undefined (R135): `TX_LEN > 4095` or `TX_FRAME` no frame of the message.
  No run reaches such a state (R42). Safe (log entry 6). -/
  | noSuchFrame
  /-- Raised when a Consecutive frame is appended with `RX_REMAINING > RX_TOTAL`, so that the write pointer (R32) is no index.
  No run reaches such a state (R43). Safe (log entry 6). -/
  | noWritePointer
deriving DecidableEq, Repr

/-- Why an instruction has no meaning. -/
inductive Refusal where
  /-- Raised by `exec` for an instruction without a meaning; none is left, so nothing raises it. Safe. -/
  | notModelled (mnemonic : String)
deriving DecidableEq, Repr

/-- The machine right after reset (R230): every value is the spec's; the environment's lists are empty (log entries 2, 3). -/
def State.reset : State :=
  { txState := .idle
    txErr := .none
    txDone := false
    txLen := 0#16
    txNad := 0#8
    txFrame := 0#10
    rxState := .awaitFs
    rxErr := .none
    rxTotal := 0#12
    rxRemaining := 0#12
    rxSeq := 1#4
    rspOk := false
    rspData := 0#8
    txbuf := []
    rxbuf := []
    inputs := []
    linkIn := []
    linkOut := [] }

end Sys2Proof.Machine
end

