-- ==== Sys2Proof/Machine/Ops.lean ====
section
/-! DEFINITION. The shared operations: the buffers cell by cell, the response registers, raising a transport error and
leaving one, reset. -/

namespace Sys2Proof.Machine

/-! ## Buffers (R14, R50 to R61) -/

/-- `MemRead(buffer, i, 1)`: the value of the latest write of cell `i`, or none for an unwritten cell (R61, R33, R34). -/
def Memory.read : Memory → Nat → Option Byte
  | [], _ => none
  | (a, b) :: m, i => if a = i then some b else Memory.read m i

/-- `MemWrite(buffer, i, 1, v)`: cell `i` holds `v`, every other cell is as before (R59, R61). -/
def Memory.write : Memory → Nat → Byte → Memory
  | [], i, v => [(i, v)]
  | (a, b) :: m, i, v =>
    if a < i then (a, b) :: Memory.write m i v
    else if a = i then (a, v) :: m
    else (i, v) :: (a, b) :: m

/-- Writes of consecutive cells from `i` on, in order. -/
def Memory.writeList : Memory → Nat → List Byte → Memory
  | m, _, [] => m
  | m, i, v :: vs => Memory.writeList (Memory.write m i v) (i + 1) vs

/-- The cells `i .. i + n - 1`, or none if one of them is unwritten. -/
def Memory.readRange (m : Memory) (i : Nat) : Nat → Option (List Byte)
  | 0 => some []
  | n + 1 =>
    match Memory.read m i, Memory.readRange m (i + 1) n with
    | some b, some bs => some (b :: bs)
    | _, _ => none

/-- The indices listed are at least `lo`, strictly rising, and indices of the buffer (R50: 0 .. 4095). -/
def Memory.risingFrom : Nat → Memory → Bool
  | _, [] => true
  | lo, (a, _) :: m => lo ≤ a && a < Config.bufSize && Memory.risingFrom (a + 1) m

/-- The canonical form. An unlisted cell reads as no value, which no entry can hold. -/
def Memory.wf (m : Memory) : Bool := Memory.risingFrom 0 m

/-! ## Responses (R36, R100) -/

/-- The response of a Host step (R36). -/
def respond (ok : Bool) (data : Byte) (s : State) : State := { s with rspOk := ok, rspData := data }

/-- An accepted command's response (R36). -/
def accept (data : Byte) (s : State) : State := respond true data s

/-- A rejection: `RSP_OK <- 0`, `RSP_DATA <- 0x00`, nothing else (R16, R84, R85, R100). -/
def reject (s : State) : State := respond false 0#8 s

/-! ## Buffer updates of the state -/

/-- A cell of `TXBUF` written by TXB_WR (R51, R102). -/
def storeTx (i : Nat) (v : Byte) (s : State) : State := { s with txbuf := Memory.write s.txbuf i v }

/-- Cells of `RXBUF` from `i` on written by the Reassembler (R52). -/
def storeRx (i : Nat) (vs : List Byte) (s : State) : State := { s with rxbuf := Memory.writeList s.rxbuf i vs }

/-! ## Transmit registers -/

/-- What every accepted TX_START writes, whatever its length (R103). -/
def loadTx (len : BitVec 16) (nad : Byte) (s : State) : State :=
  { s with txLen := len, txNad := nad, txFrame := 0#10, txDone := false }

/-- The start of a message of legal length (R103). -/
def startTx (s : State) : State := { s with txErr := .none, txState := .sending }

/-- The Link has accepted the offered frame; the next one is due (R137). -/
def emit (p : PortFrame) (s : State) : State :=
  { s with linkOut := s.linkOut ++ [p], txFrame := s.txFrame + 1#10 }

/-- The last frame is accepted (R138). -/
def finishTx (s : State) : State := { s with txState := .idle, txDone := true }

/-! ## Receive registers -/

/-- The registers after an accepted Single frame (R165). -/
def completeSingle (total : BitVec 12) (s : State) : State :=
  { s with rxTotal := total, rxRemaining := 0#12, rxState := .complete }

/-- The registers after an accepted First frame (R167). -/
def openMessage (total : BitVec 12) (s : State) : State :=
  { s with rxTotal := total, rxRemaining := total - BitVec.ofNat 12 Config.ffData, rxSeq := 1#4, rxState := .awaitCf }

/-- The registers after an accepted Consecutive frame that leaves `remaining` bytes expected (R171). -/
def advanceRx (remaining : BitVec 12) (s : State) : State :=
  { s with rxRemaining := remaining, rxSeq := s.rxSeq + 1#4,
           rxState := if remaining = 0#12 then .complete else s.rxState }

/-! ## Errors (spec/60_exceptions.md) -/

/-- Error entry, the one operation that records a transport error: `PayloadTooLarge` in `TX_ERR`, the Framer not started
(R201); a receive error in `RX_ERR`, with `RX_STATE <- FAILED` (R202, R203, R210). Nothing else is written (R15, R210). -/
def raise (e : TransportError) (s : State) : State :=
  match e with
  | .payloadTooLarge => { s with txErr := .payloadTooLarge }
  | .framing => { s with rxErr := .framing, rxState := .failed }
  | .sequence => { s with rxErr := .sequence, rxState := .failed }

/-- The end of a read, which is also the exit from a receive error (R105, R211). -/
def endRead (s : State) : State :=
  { s with rxState := .awaitFs, rxErr := .none, rxRemaining := 0#12, rxSeq := 1#4 }

/-! ## Reset (R230 to R232) -/

/-- A reset step: every register takes its reset value and every cell of both buffers is unwritten again (R230); what the
Link has accepted or will offer is the Link's and stays (R231, R232; log entries 12 and 13). -/
def resetBlock (s : State) : State :=
  { State.reset with inputs := s.inputs, linkIn := s.linkIn, linkOut := s.linkOut }

end Sys2Proof.Machine
end

