-- ==== Sys2Proof/Machine/Flags.lean ====
section
/-! DEFINITION. The codes of the state and error fields and the three status words (spec/10_state.md R21, R27, R37 to R39,
spec/60_exceptions.md R200). -/

namespace Sys2Proof.Machine

/-- `IDLE` = 0, `SENDING` = 1 (R21). -/
def txStateCode : TxState → BitVec 1
  | .idle => 0#1
  | .sending => 1#1

/-- `AWAIT_FS` = 0, `AWAIT_CF` = 1, `COMPLETE` = 2, `FAILED` = 3 (R27). -/
def rxStateCode : RxState → BitVec 2
  | .awaitFs => 0#2
  | .awaitCf => 1#2
  | .complete => 2#2
  | .failed => 3#2

/-- `NONE` = 0, `PAYLOAD_TOO_LARGE` = 1, `FRAMING` = 2, `SEQUENCE` = 3 (R200). -/
def errCode : ErrCode → BitVec 2
  | .none => 0#2
  | .payloadTooLarge => 1#2
  | .framing => 2#2
  | .sequence => 3#2

/-- `status0` (R37). -/
def status0 (s : State) : Word32 :=
  0#8 ++ s.rxTotal ++ s.rxSeq ++ errCode s.rxErr ++ rxStateCode s.rxState ++ errCode s.txErr ++
    BitVec.ofBool s.txDone ++ txStateCode s.txState

/-- `status1` (R38). -/
def status1 (s : State) : Word32 := 0#10 ++ s.txFrame ++ s.rxRemaining

/-- `status2` (R39). -/
def status2 (s : State) : Word32 := 0#8 ++ s.txNad ++ s.txLen

/-- `ltx_valid`: a frame is offered to the Link (R35). -/
def ltxValid (s : State) : Bool := s.txState = .sending

/-- `lrx_ready`: the Reassembler consumes frames (R35, R163, R174). -/
def lrxReady (s : State) : Bool := s.rxState = .awaitFs || s.rxState = .awaitCf

end Sys2Proof.Machine
end

