-- ==== Sys2Proof/Syntax.lean ====
section
/-! DEFINITION. The syntax: one constructor of `Instr` per row of spec/opcode_table.json (five commands, four reserved
command rows, three frame types, three reserved frame rows). Each carries every bit of its encoding that the row does not
fix, so that encoding loses nothing. -/

namespace Sys2Proof

/-- The data area `F[2] .. F[7]` of a frame (R70; `spec/90_conflicts.md` C2 for the name). -/
structure DataArea where
  b2 : Byte
  b3 : Byte
  b4 : Byte
  b5 : Byte
  b6 : Byte
  b7 : Byte
deriving DecidableEq, Repr

/-- The message bytes `F[3] .. F[7]` of a First frame, whose `F[2]` is the low length byte (R74). -/
structure FirstData where
  b3 : Byte
  b4 : Byte
  b5 : Byte
  b6 : Byte
  b7 : Byte
deriving DecidableEq, Repr

/-- A frame: exactly eight bytes `F[0] .. F[7]`, the address byte first and the PCI byte second (R6, R13, R70). -/
structure Frame where
  nad  : Byte
  pci  : Byte
  data : DataArea
deriving DecidableEq, Repr

/-- What the block decodes (spec/30_encoding.md, opening): a 32-bit host command word, or a received frame in the packing
of the 64-bit port. -/
inductive Encoded where
  | command (w : Word32)
  | frame (p : PortFrame)
deriving DecidableEq, Repr

/-- The instructions: host commands (R82) and received frames (R72). -/
inductive Instr where
  /-- `NOP` (R101). -/
  | nop
  /-- `TXB_WR idx, data` (R102). -/
  | txbWr (idx : BitVec 12) (data : Byte)
  /-- `TX_START len, nad` (R103). -/
  | txStart (len : BitVec 16) (nad : Byte)
  /-- `RXB_RD idx` (R104). -/
  | rxbRd (idx : BitVec 12)
  /-- `RX_ACK` (R105). -/
  | rxAck
  /-- A word with `OP = 5` (R85); `rest` is `w[31:4]`. -/
  | reservedOp5 (rest : BitVec 28)
  /-- A word with `OP = 6` (R85). -/
  | reservedOp6 (rest : BitVec 28)
  /-- A word with `OP = 7` (R85). -/
  | reservedOp7 (rest : BitVec 28)
  /-- A word with `OP` 8 to 15 (R85). -/
  | reservedOp8_15 (op : BitVec 4) (rest : BitVec 28)
  /-- A Single frame (R73, R76). -/
  | sf (nad : Byte) (sfDl : BitVec 4) (data : DataArea)
  /-- A First frame, its 12-bit length assembled from the PCI byte and `F[2]` (R74, R77). -/
  | ff (nad : Byte) (ffDl : BitVec 12) (data : FirstData)
  /-- A Consecutive frame (R75, R78). -/
  | cf (nad : Byte) (sn : BitVec 4) (data : DataArea)
  /-- A frame of the reserved type 3 (R79). -/
  | reservedType3 (nad : Byte) (pciLo : BitVec 4) (data : DataArea)
  /-- A frame of a reserved type 4 to 7 (R79). -/
  | reservedType4_7 (nad : Byte) (type : BitVec 4) (pciLo : BitVec 4) (data : DataArea)
  /-- A frame of a reserved type 8 to 15 (R79). -/
  | reservedType8_F (nad : Byte) (type : BitVec 4) (pciLo : BitVec 4) (data : DataArea)
deriving DecidableEq, Repr

end Sys2Proof
end

