-- ==== Sys2Proof/WellFormed.lean ====
section
/-! DEFINITION. The checks an instruction must pass to stand for words of its row. Operand widths are exact in the types;
what remains is the range of the code in the rows that cover several codes. -/

namespace Sys2Proof

/-- The row `RESERVED_OP8_15` covers `OP` 8 to 15 (R85). -/
def wfOp8_15 (op : BitVec 4) : Bool := 8 ≤ op.toNat

/-- The row `RESERVED_TYPE4_7` covers the types 4 to 7 (R79). -/
def wfType4_7 (type : BitVec 4) : Bool := 4 ≤ type.toNat && type.toNat ≤ 7

/-- The row `RESERVED_TYPE8_F` covers the types 8 to 15 (R79). -/
def wfType8_F (type : BitVec 4) : Bool := 8 ≤ type.toNat

/-- The well-formed instructions. -/
def WellFormed : Instr → Bool
  | .nop => true
  | .txbWr _ _ => true
  | .txStart _ _ => true
  | .rxbRd _ => true
  | .rxAck => true
  | .reservedOp5 _ => true
  | .reservedOp6 _ => true
  | .reservedOp7 _ => true
  | .reservedOp8_15 op _ => wfOp8_15 op
  | .sf _ _ _ => true
  | .ff _ _ _ => true
  | .cf _ _ _ => true
  | .reservedType3 _ _ _ => true
  | .reservedType4_7 _ type _ _ => wfType4_7 type
  | .reservedType8_F _ type _ _ => wfType8_F type

end Sys2Proof
end

