-- ==== Sys2Proof/Decode.lean ====
section
/-! DEFINITION. Decoding and encoding (spec/30_encoding.md, spec/20_memory.md R53). The decoder is total: it refuses, by
name, exactly the command words with a defined operation code and a set must-be-zero bit (R84). -/

namespace Sys2Proof

/-- Why a word decodes to no instruction. -/
inductive DecodeError where
  /-- `OP` is defined and a must-be-zero bit is set (R84). The Host's step answers it with a rejection; safe. -/
  | mustBeZero (op : BitVec 4)
deriving DecidableEq, Repr

/-! ## Frames on a port -/

/-- The message bytes of a First frame in frame order (R54). -/
def FirstData.bytes (d : FirstData) : List Byte := [d.b3, d.b4, d.b5, d.b6, d.b7]

/-- The data area in frame order (R54). -/
def DataArea.bytes (d : DataArea) : List Byte := [d.b2, d.b3, d.b4, d.b5, d.b6, d.b7]

/-- The eight bytes of a frame, `F[0]` first (R13). -/
def Frame.bytes (f : Frame) : List Byte := f.nad :: f.pci :: f.data.bytes

/-- `P[8k+7:8k] = F[k]` (R53). -/
def packFrame (f : Frame) : PortFrame :=
  f.data.b7 ++ f.data.b6 ++ f.data.b5 ++ f.data.b4 ++ f.data.b3 ++ f.data.b2 ++ f.pci ++ f.nad

/-- Byte `F[k]` of a port value (R53). -/
def portByte (p : PortFrame) (k : Nat) : Byte := p.extractLsb' (8 * k) 8

/-- The frame of a port value (R53). -/
def unpackFrame (p : PortFrame) : Frame :=
  { nad := portByte p 0, pci := portByte p 1,
    data := { b2 := portByte p 2, b3 := portByte p 3, b4 := portByte p 4, b5 := portByte p 5,
              b6 := portByte p 6, b7 := portByte p 7 } }

/-- The frame type, `F[1][7:4]` (R71). -/
def pciType (pci : Byte) : BitVec 4 := pci.extractLsb' 4 4

/-- The type-specific low nibble, `F[1][3:0]` (R71). -/
def pciLow (pci : Byte) : BitVec 4 := pci.extractLsb' 0 4

/-- A received frame as an instruction (R72, R86 part 2: the type selects, no frame is refused). -/
def decodeFrame (f : Frame) : Instr :=
  let type := pciType f.pci
  let lo := pciLow f.pci
  if type = 0#4 then .sf f.nad lo f.data
  else if type = 1#4 then
    .ff f.nad (lo ++ f.data.b2) { b3 := f.data.b3, b4 := f.data.b4, b5 := f.data.b5, b6 := f.data.b6, b7 := f.data.b7 }
  else if type = 2#4 then .cf f.nad lo f.data
  else if type = 3#4 then .reservedType3 f.nad lo f.data
  else if type.toNat ≤ 7 then .reservedType4_7 f.nad type lo f.data
  else .reservedType8_F f.nad type lo f.data

/-! ## Host command words -/

/-- `OP = w[3:0]` (R81). -/
def opField (w : Word32) : BitVec 4 := w.extractLsb' 0 4

/-- The byte operand `B8 = w[11:4]` (R81, R83). -/
def byteField (w : Word32) : Byte := w.extractLsb' 4 8

/-- The buffer index `A16[11:0] = w[23:12]` (R81, R83). -/
def indexField (w : Word32) : BitVec 12 := w.extractLsb' 12 12

/-- The length `A16 = w[27:12]` (R81, R83). -/
def lengthField (w : Word32) : BitVec 16 := w.extractLsb' 12 16

/-- The bits above `OP`, `w[31:4]`. -/
def restField (w : Word32) : BitVec 28 := w.extractLsb' 4 28

/-- A word accepted when its must-be-zero bits are clear, refused by name otherwise (R84). -/
def whenClear (clear : Bool) (op : BitVec 4) (i : Instr) : Except DecodeError Instr :=
  if clear then .ok i else .error (.mustBeZero op)

/-- A host command word as an instruction (R82 to R86). A reserved code is a row of its own, so it decodes whatever its
other bits are (R85); a defined code with a set must-be-zero bit is refused by name (R84). -/
def decodeCommand (w : Word32) : Except DecodeError Instr :=
  let op := opField w
  if op = 0#4 then whenClear (restField w = 0#28) op .nop
  else if op = 1#4 then whenClear (w.extractLsb' 24 8 = 0#8) op (.txbWr (indexField w) (byteField w))
  else if op = 2#4 then whenClear (w.extractLsb' 28 4 = 0#4) op (.txStart (lengthField w) (byteField w))
  else if op = 3#4 then
    whenClear (w.extractLsb' 24 8 = 0#8 && byteField w = 0#8) op (.rxbRd (indexField w))
  else if op = 4#4 then whenClear (restField w = 0#28) op .rxAck
  else if op = 5#4 then .ok (.reservedOp5 (restField w))
  else if op = 6#4 then .ok (.reservedOp6 (restField w))
  else if op = 7#4 then .ok (.reservedOp7 (restField w))
  else .ok (.reservedOp8_15 op (restField w))

/-- Decoding of either kind of word. -/
def decode : Encoded → Except DecodeError Instr
  | .command w => decodeCommand w
  | .frame p => .ok (decodeFrame (unpackFrame p))

/-! ## The encoder -/

/-- A PCI byte from its type and its low nibble (R71). -/
def pciOf (type lo : BitVec 4) : Byte := type ++ lo

/-- The words of an instruction: the encoding strings of R81 and the frame layouts of R73 to R75. -/
def encode : Instr → Encoded
  | .nop => .command 0#32
  | .txbWr idx data => .command (0#8 ++ idx ++ data ++ 1#4)
  | .txStart len nad => .command (0#4 ++ len ++ nad ++ 2#4)
  | .rxbRd idx => .command (0#8 ++ idx ++ 0#8 ++ 3#4)
  | .rxAck => .command 4#32
  | .reservedOp5 rest => .command (rest ++ 5#4)
  | .reservedOp6 rest => .command (rest ++ 6#4)
  | .reservedOp7 rest => .command (rest ++ 7#4)
  | .reservedOp8_15 op rest => .command (rest ++ op)
  | .sf nad sfDl data => .frame (packFrame { nad := nad, pci := pciOf 0#4 sfDl, data := data })
  | .ff nad ffDl d =>
    .frame (packFrame { nad := nad, pci := pciOf 1#4 (ffDl.extractLsb' 8 4),
                        data := { b2 := ffDl.extractLsb' 0 8, b3 := d.b3, b4 := d.b4, b5 := d.b5, b6 := d.b6, b7 := d.b7 } })
  | .cf nad sn data => .frame (packFrame { nad := nad, pci := pciOf 2#4 sn, data := data })
  | .reservedType3 nad pciLo data => .frame (packFrame { nad := nad, pci := pciOf 3#4 pciLo, data := data })
  | .reservedType4_7 nad type pciLo data => .frame (packFrame { nad := nad, pci := pciOf type pciLo, data := data })
  | .reservedType8_F nad type pciLo data => .frame (packFrame { nad := nad, pci := pciOf type pciLo, data := data })

/-! ## The opcode table's numbering -/

/-- The port value of a frame whose PCI byte is `pci` and whose other bytes are zero: a frame row of the table gives the
bits of `F[1]` alone (log entry 11). -/
def tableFrame (pci : Nat) : PortFrame :=
  packFrame { nad := 0#8, pci := BitVec.ofNat 8 pci, data := { b2 := 0#8, b3 := 0#8, b4 := 0#8, b5 := 0#8, b6 := 0#8, b7 := 0#8 } }

/-- A table row's bits as the word the block decodes: the 8-bit rows are PCI bytes of frames, the others command words. -/
def tableWord (nbits w : Nat) : Encoded :=
  if nbits = 8 then .frame (tableFrame w) else .command (BitVec.ofNat 32 w)

/-- The instruction the decoder reads from a table row's bits. -/
def decodeTableWord (nbits w : Nat) : Option Instr :=
  match decode (tableWord nbits w) with
  | .ok i => some i
  | .error _ => none

end Sys2Proof
end

