-- ==== Sys2Proof/Machine/Operands.lean ====
section
/-! DEFINITION. The operand forms: lengths, slices, padding and unpadding, the write pointer, the sequence number
(spec/41_framer.md section 1, spec/42_reassembler.md section 1, spec/10_state.md R32). -/

namespace Sys2Proof.Machine

/-! ## Transmit -/

/-- `NFRAMES(L)` (R130). -/
def nframes (len : Nat) : Nat :=
  if len ≤ Config.sfMax then 1 else 1 + (len - Config.ffData + (Config.cfData - 1)) / Config.cfData

/-- The index of the first message byte the frame of index `k` carries: 0, or `off(k) = 5 + 6 (k - 1)` (R134, R135). -/
def sliceStart (k : Nat) : Nat := if k = 0 then 0 else Config.ffData + Config.cfData * (k - 1)

/-- How many message bytes the frame of index `k` carries: `L` for a Single frame, 5 for a First frame,
`n(k) = min(6, L - off(k))` for a Consecutive frame (R132 to R135). -/
def sliceLen (len k : Nat) : Nat :=
  if len ≤ Config.sfMax then len
  else if k = 0 then Config.ffData
  else min Config.cfData (len - sliceStart k)

/-- `Pad` (R131). -/
def pad (d : List Byte) : List Byte := d ++ List.replicate (Config.cfData - d.length) Config.fill

/-- Six bytes as a data area, `F[2]` first. -/
def areaOf (d : List Byte) : DataArea :=
  { b2 := d.getD 0 Config.fill, b3 := d.getD 1 Config.fill, b4 := d.getD 2 Config.fill,
    b5 := d.getD 3 Config.fill, b6 := d.getD 4 Config.fill, b7 := d.getD 5 Config.fill }

/-- The sequence number of the Consecutive frame of index `k`: `k % 16` (R78, R139). -/
def seqOf (k : Nat) : BitVec 4 := BitVec.ofNat 4 k

/-! ## Receive -/

/-- A Single frame's length is legal (R161). -/
def legalSingle (sfDl : BitVec 4) : Bool := sfDl.toNat ≤ Config.sfMax

/-- A First frame's length is legal (R161). -/
def legalFirst (ffDl : BitVec 12) : Bool := Config.ffMin ≤ ffDl.toNat

/-- `Unpad(F, 2, n)`: the first `n` bytes of the data area (R160). -/
def unpad (data : DataArea) (n : Nat) : List Byte := data.bytes.take n

/-- `WP = RX_TOTAL - RX_REMAINING` (R32). -/
def writePointer (s : State) : Nat := s.rxTotal.toNat - s.rxRemaining.toNat

/-- The number of bytes the next Consecutive frame carries: `min(6, RX_REMAINING)` (R171). -/
def appendLen (s : State) : Nat := min Config.cfData s.rxRemaining.toNat

end Sys2Proof.Machine
end

