-- ==== Sys2Proof/Machine/Framer.lean ====
section
/-! DEFINITION. The segmentation framer and padder (spec/41_framer.md). -/

namespace Sys2Proof.Machine

/-- `EncSF` (R132). -/
def encSF (nad : Byte) (len : Nat) (d : List Byte) : Frame :=
  { nad := nad, pci := pciOf 0#4 (BitVec.ofNat 4 len), data := areaOf (pad d) }

/-- `EncFF` (R133): PCI `0x10 | (L // 256)`, then `L % 256`, then five message bytes, no padding. -/
def encFF (nad : Byte) (len : Nat) (d : List Byte) : Frame :=
  { nad := nad, pci := pciOf 1#4 (BitVec.ofNat 4 (len / 256)), data := areaOf (BitVec.ofNat 8 (len % 256) :: d) }

/-- `EncCF` (R134). -/
def encCF (nad : Byte) (k : Nat) (d : List Byte) : Frame :=
  { nad := nad, pci := pciOf 2#4 (seqOf k), data := areaOf (pad d) }

/-- The frame of index `k` of a message of length `len`, from the message bytes `d` it carries (R135). -/
def frameOf (nad : Byte) (len k : Nat) (d : List Byte) : Frame :=
  if len ≤ Config.sfMax then encSF nad len d
  else if k = 0 then encFF nad len d
  else encCF nad k d

/-- `FrameK(nad, TXBUF, L, k)` (R135): it reads the cells the chosen case names and no other; none if one is unwritten. -/
def frameK (nad : Byte) (buf : Memory) (len k : Nat) : Option Frame :=
  match Memory.readRange buf (sliceStart k) (sliceLen len k) with
  | some d => some (frameOf nad len k d)
  | none => none

/-- The message bytes the frame of index `k` carries (R54, R141). -/
def sliceOf (m : List Byte) (k : Nat) : List Byte := (m.drop (sliceStart k)).take (sliceLen m.length k)

/-- The frames of a legal message, in index order (R136). -/
def encodeFrames (nad : Byte) (m : List Byte) : List Frame :=
  (List.range (nframes m.length)).map (fun k => frameOf nad m.length k (sliceOf m k))

/-- `Encode(nad, m)` (R136): the length check comes first. -/
def encodeMessage (nad : Byte) (m : List Byte) : Except TransportError (List Frame) :=
  if Config.msgMax < m.length then .error .payloadTooLarge else .ok (encodeFrames nad m)

/-- The state has a frame to offer: `FrameK` is defined on its registers (R135; log entry 6). -/
def frameDue (s : State) : Bool :=
  s.txLen.toNat ≤ Config.msgMax && s.txFrame.toNat < nframes s.txLen.toNat

/-- The frame offered to the Link, none where it is not defined (R35, R137; computed at the step, D33). -/
def offered (s : State) : Option Frame :=
  if frameDue s then frameK s.txNad s.txbuf s.txLen.toNat s.txFrame.toNat else none

/-- The registers after the Link accepts frame `p` (R137, R138). -/
def emitFrame (p : PortFrame) (s : State) : State :=
  if s.txFrame.toNat + 1 = nframes s.txLen.toNat then finishTx (emit p s) else emit p s

/-- The Framer's step when the Link is ready (R137). In `IDLE` the Framer has no step (log entry 7). -/
def framerStep (s : State) : Host.Outcome State Fault Refusal :=
  if s.txState = .sending then
    if frameDue s then
      match frameK s.txNad s.txbuf s.txLen.toNat s.txFrame.toNat with
      | some f => .next (emitFrame (packFrame f) s)
      | none => .fault .unwrittenRead
    else .fault .noSuchFrame
  else .next s

end Sys2Proof.Machine
end

