-- ==== Sys2Proof/Machine/HostCommands.lean ====
section
/-! DEFINITION. The host commands (spec/40_host_commands.md) and the reserved command words (spec/30_encoding.md R85). -/

namespace Sys2Proof.Machine

/-- A command the transmitter rejects while it is sending (R102, R103, R208 part 3). -/
def unlessSending (act : State → State) (s : State) : State :=
  if s.txState = .sending then reject s else act s

/-- `NOP` (R101). -/
def execNop (s : State) : Host.Outcome State Fault Refusal := .next (accept 0#8 s)

/-- `TXB_WR` (R102). -/
def execTxbWr (idx : BitVec 12) (data : Byte) (s : State) : Host.Outcome State Fault Refusal :=
  .next (unlessSending (fun s => accept 0#8 (storeTx idx.toNat data s)) s)

/-- `TX_START` (R103): the length check comes after the guard (R208 part 4). -/
def execTxStart (len : BitVec 16) (nad : Byte) (s : State) : Host.Outcome State Fault Refusal :=
  .next (unlessSending (fun s =>
    accept 0#8 (if Config.msgMax < len.toNat then raise .payloadTooLarge (loadTx len nad s) else startTx (loadTx len nad s))) s)

/-- `RXB_RD` (R104): accepted in every state. -/
def execRxbRd (idx : BitVec 12) (s : State) : Host.Outcome State Fault Refusal :=
  match Memory.read s.rxbuf idx.toNat with
  | some b => .next (accept b s)
  | none => .fault .unwrittenRead

/-- `RX_ACK` (R105). -/
def execRxAck (s : State) : Host.Outcome State Fault Refusal :=
  .next (if s.rxState = .complete ∨ s.rxState = .failed then accept 0#8 (endRead s) else reject s)

/-- A word with `OP = 5`: rejected whatever its other bits (R85). -/
def execReservedOp5 (_rest : BitVec 28) (s : State) : Host.Outcome State Fault Refusal := .next (reject s)

/-- A word with `OP = 6`: rejected whatever its other bits (R85). -/
def execReservedOp6 (_rest : BitVec 28) (s : State) : Host.Outcome State Fault Refusal := .next (reject s)

/-- A word with `OP = 7`: rejected whatever its other bits (R85). -/
def execReservedOp7 (_rest : BitVec 28) (s : State) : Host.Outcome State Fault Refusal := .next (reject s)

/-- A word with `OP` 8 to 15: rejected whatever its other bits (R85). -/
def execReservedOp8_15 (_op : BitVec 4) (_rest : BitVec 28) (s : State) : Host.Outcome State Fault Refusal :=
  .next (reject s)

/-- A word with a defined `OP` and a set must-be-zero bit: rejected (R84). -/
def rejectMalformed (s : State) : Host.Outcome State Fault Refusal := .next (reject s)

end Sys2Proof.Machine
end

