-- ==== Sys2Proof/Machine/Reassembler.lean ====
section
/-! DEFINITION. The reassembly state machine (spec/42_reassembler.md): one meaning per frame type, each over the dispatch
on `RX_STATE` of R163. All checks come before all writes (R15, D12). -/

namespace Sys2Proof.Machine

/-- The dispatch on `RX_STATE` (R163, R207): what the frame does in `AWAIT_FS` and in `AWAIT_CF`; in `COMPLETE` and `FAILED`
the Reassembler has no step and nothing changes (R174). -/
def byRxState (inFs inCf : State → Host.Outcome State Fault Refusal) (s : State) : Host.Outcome State Fault Refusal :=
  match s.rxState with
  | .awaitFs => inFs s
  | .awaitCf => inCf s
  | .complete => .next s
  | .failed => .next s

/-- A framing error (R202): the cause is not stored (U29). -/
def framingError (s : State) : Host.Outcome State Fault Refusal := .next (raise .framing s)

/-- A sequence error (R203): the received number is not stored (U30). -/
def sequenceError (s : State) : Host.Outcome State Fault Refusal := .next (raise .sequence s)

/-- A Single frame in `AWAIT_FS` (R165, R166). -/
def takeSingle (sfDl : BitVec 4) (data : DataArea) (s : State) : Host.Outcome State Fault Refusal :=
  if legalSingle sfDl then
    .next (completeSingle (sfDl.setWidth 12) (storeRx 0 (unpad data sfDl.toNat) s))
  else framingError s

/-- A First frame in `AWAIT_FS` (R167, R168). -/
def takeFirst (ffDl : BitVec 12) (data : FirstData) (s : State) : Host.Outcome State Fault Refusal :=
  if legalFirst ffDl then .next (openMessage ffDl (storeRx 0 data.bytes s)) else framingError s

/-- A Consecutive frame with the expected sequence number (R171): the bytes, then the count left. -/
def appendConsecutive (data : DataArea) (s : State) : Host.Outcome State Fault Refusal :=
  if s.rxRemaining ≤ s.rxTotal then
    .next (advanceRx (s.rxRemaining - BitVec.ofNat 12 (appendLen s))
      (storeRx (writePointer s) (unpad data (appendLen s)) s))
  else .fault .noWritePointer

/-- A Consecutive frame in `AWAIT_CF` (R162, R171, R172). -/
def takeConsecutive (sn : BitVec 4) (data : DataArea) (s : State) : Host.Outcome State Fault Refusal :=
  if sn = s.rxSeq then appendConsecutive data s else sequenceError s

/-- A Single frame: R165, R166 in `AWAIT_FS`, R173 in `AWAIT_CF`. The address byte is not read (R164). -/
def execSf (_nad : Byte) (sfDl : BitVec 4) (data : DataArea) (s : State) : Host.Outcome State Fault Refusal :=
  byRxState (takeSingle sfDl data) framingError s

/-- A First frame: R167, R168 in `AWAIT_FS`, R173 in `AWAIT_CF`. -/
def execFf (_nad : Byte) (ffDl : BitVec 12) (data : FirstData) (s : State) : Host.Outcome State Fault Refusal :=
  byRxState (takeFirst ffDl data) framingError s

/-- A Consecutive frame: R169 in `AWAIT_FS`, R171, R172 in `AWAIT_CF`. -/
def execCf (_nad : Byte) (sn : BitVec 4) (data : DataArea) (s : State) : Host.Outcome State Fault Refusal :=
  byRxState framingError (takeConsecutive sn data) s

/-- A frame of the reserved type 3: R170 in `AWAIT_FS`, R173 in `AWAIT_CF`. -/
def execReservedType3 (_nad : Byte) (_lo : BitVec 4) (_data : DataArea) (s : State) : Host.Outcome State Fault Refusal :=
  byRxState framingError framingError s

/-- A frame of a reserved type 4 to 7: R170, R173. -/
def execReservedType4_7 (_nad : Byte) (_type _lo : BitVec 4) (_data : DataArea) (s : State) :
    Host.Outcome State Fault Refusal :=
  byRxState framingError framingError s

/-- A frame of a reserved type 8 to 15: R170, R173. -/
def execReservedType8_F (_nad : Byte) (_type _lo : BitVec 4) (_data : DataArea) (s : State) :
    Host.Outcome State Fault Refusal :=
  byRxState framingError framingError s

/-- The message of a completed read, `RXBUF[0 .. RX_TOTAL - 1]`; none if a cell of it is unwritten (R175). -/
def message (s : State) : Option (List Byte) := Memory.readRange s.rxbuf 0 s.rxTotal.toNat

end Sys2Proof.Machine
end

