-- ==== Sys2Proof/Machine/Dispatch.lean ====
section
/-! DEFINITION. The dispatch: one arm per row of spec/opcode_table.json. -/

namespace Sys2Proof.Machine

def exec (i : Instr) (s : State) : Host.Outcome State Fault Refusal :=
  match i with
  | .nop => Sys2Proof.Machine.execNop s
  | .txbWr idx data => Sys2Proof.Machine.execTxbWr idx data s
  | .txStart len nad => Sys2Proof.Machine.execTxStart len nad s
  | .rxbRd idx => Sys2Proof.Machine.execRxbRd idx s
  | .rxAck => Sys2Proof.Machine.execRxAck s
  | .reservedOp5 rest => Sys2Proof.Machine.execReservedOp5 rest s
  | .reservedOp6 rest => Sys2Proof.Machine.execReservedOp6 rest s
  | .reservedOp7 rest => Sys2Proof.Machine.execReservedOp7 rest s
  | .reservedOp8_15 op rest => Sys2Proof.Machine.execReservedOp8_15 op rest s
  | .sf nad sfDl data => Sys2Proof.Machine.execSf nad sfDl data s
  | .ff nad ffDl data => Sys2Proof.Machine.execFf nad ffDl data s
  | .cf nad sn data => Sys2Proof.Machine.execCf nad sn data s
  | .reservedType3 nad lo data => Sys2Proof.Machine.execReservedType3 nad lo data s
  | .reservedType4_7 nad type lo data => Sys2Proof.Machine.execReservedType4_7 nad type lo data s
  | .reservedType8_F nad type lo data => Sys2Proof.Machine.execReservedType8_F nad type lo data s

end Sys2Proof.Machine
end

