-- ==== Sys2Proof/Machine/Agents.lean ====
section
/-! DEFINITION. One step of each agent (spec/00_scope.md R5): the Host, the Link's turn to offer, the ports as the outside
sees them (spec/10_state.md R35), and the decoding function of a whole read (spec/42_reassembler.md R176). -/

namespace Sys2Proof.Machine

/-- A Host step with word `w` (R100): the decoded instruction runs; a malformed word is rejected (R84, R86). -/
def hostStep (w : Word32) (s : State) : Host.Outcome State Fault Refusal :=
  match decode (.command w) with
  | .ok i => exec i s
  | .error _ => rejectMalformed s

/-- The Reassembler with frame `p` presented to it (R163). -/
def consume (p : PortFrame) (s : State) : Host.Outcome State Fault Refusal :=
  exec (decodeFrame (unpackFrame p)) s

/-- The Link's turn to offer: with `lrx_ready = 1` the next frame of its queue is taken and consumed; with `lrx_ready = 0`
it stays with the Link (R163, R174); with no frame to offer, `lrx_valid = 0` and there is no step (R35; log entry 7). -/
def offerStep (s : State) : Host.Outcome State Fault Refusal :=
  match s.linkIn with
  | [] => .next s
  | p :: rest => if lrxReady s then consume p { s with linkIn := rest } else .next s

/-- The next input event is taken from the environment's list. -/
def dropInput (s : State) : State := { s with inputs := s.inputs.tail }

/-- The step an input event gives its agent. -/
def runInput (e : Input) (s : State) : Host.Outcome State Fault Refusal :=
  match e with
  | .reset _ _ _ => .next (resetBlock s)
  | .command w => hostStep w s
  | .linkReady => framerStep s
  | .linkOffer => offerStep s

/-- An instruction's words presented to the block at its next step: a command word on the command port, a frame at the head
of the Link's queue with the Link's turn to offer. -/
def present (e : Encoded) (s : State) : State :=
  match e with
  | .command w => { s with inputs := .command w :: s.inputs }
  | .frame p => { s with inputs := .linkOffer :: s.inputs, linkIn := p :: s.linkIn }

/-! ## The ports (R35) -/

/-- The input ports at the next step. -/
structure InPorts where
  rst : Bool
  cmdValid : Bool
  cmdWord : Word32
  ltxReady : Bool
  lrxValid : Bool
  lrxFrame : PortFrame
deriving DecidableEq, Repr

/-- The output ports. `ltxFrame` is none where no frame is defined: `TX_STATE = IDLE`, or a cell of it is unwritten. -/
structure OutPorts where
  rspOk : Bool
  rspData : Byte
  ltxValid : Bool
  ltxFrame : Option PortFrame
  lrxReady : Bool
  status0 : Word32
  status1 : Word32
  status2 : Word32
deriving DecidableEq, Repr

/-- What the environment presents at the next step. A data port whose valid bit is 0 carries no meaning; it shows zero. -/
def inPorts (s : State) : InPorts :=
  match s.inputs.head? with
  | none => { rst := false, cmdValid := false, cmdWord := 0#32, ltxReady := false, lrxValid := false, lrxFrame := 0#64 }
  | some (.reset cmd ready offer) =>
    { rst := true, cmdValid := cmd.isSome, cmdWord := cmd.getD 0#32, ltxReady := ready,
      lrxValid := offer && !s.linkIn.isEmpty, lrxFrame := s.linkIn.headD 0#64 }
  | some (.command w) =>
    { rst := false, cmdValid := true, cmdWord := w, ltxReady := false, lrxValid := false, lrxFrame := 0#64 }
  | some .linkReady =>
    { rst := false, cmdValid := false, cmdWord := 0#32, ltxReady := true, lrxValid := false, lrxFrame := 0#64 }
  | some .linkOffer =>
    { rst := false, cmdValid := false, cmdWord := 0#32, ltxReady := false, lrxValid := !s.linkIn.isEmpty,
      lrxFrame := s.linkIn.headD 0#64 }

/-- What the block shows (R35 to R39). -/
def outPorts (s : State) : OutPorts :=
  { rspOk := s.rspOk, rspData := s.rspData, ltxValid := ltxValid s,
    ltxFrame := if ltxValid s then (offered s).map packFrame else none,
    lrxReady := lrxReady s, status0 := status0 s, status1 := status1 s, status2 := status2 s }

/-! ## A whole read (R175, R176) -/

/-- The result of `Decode` (R176), with the model's stop where a step of the read stops. -/
inductive ReadResult where
  | complete (m : List Byte) (c : Nat)
  | failed (e : ErrCode) (c : Nat)
  | pending (st : RxState)
  | stopped
deriving DecidableEq, Repr

/-- The result of a read that has consumed `c` frames, as it stands (R175). -/
def readResult (c : Nat) (s : State) : ReadResult :=
  match s.rxState with
  | .complete =>
    match message s with
    | some m => .complete m c
    | none => .stopped
  | .failed => .failed s.rxErr c
  | .awaitFs => .pending .awaitFs
  | .awaitCf => .pending .awaitCf

/-- `Decode` from a state in which `c` frames are consumed already: frames are consumed in order until `COMPLETE` or `FAILED`,
and those after it are not (R176). -/
def decodeFrom : Nat → State → List Frame → ReadResult
  | c, s, [] => readResult c s
  | c, s, f :: fs =>
    if lrxReady s then
      match consume (packFrame f) s with
      | .next t => decodeFrom (c + 1) t fs
      | .fault _ => .stopped
      | .refused _ => .stopped
    else readResult c s

end Sys2Proof.Machine
end

