-- ==== Sys2Proof/Machine/Step.lean ====
section
/-! DEFINITION. The step: the next input event is taken and its agent steps. With no input presented no agent has a step,
and the block waits as it is (R238, R246; log entry 8). -/

namespace Sys2Proof.Machine

/-- One atomic step of the block (R5, R61). -/
def step (s : State) : Host.Outcome State Fault Refusal :=
  match s.inputs.head? with
  | none => .next s
  | some e => runInput e (dropInput s)

/-- The state in which the next step receives the table row's word: a command word on the command port, or a frame the Link
offers (log entries 2 and 11). -/
def State.withFetchWord (s : State) (nbits w : Nat) : State := present (tableWord nbits w) s

end Sys2Proof.Machine
end

