-- ==== Sys2Proof/Safety.lean ====
section
/-! DEFINITION. What counts as a safe run: the invariants of the reachable states (spec/10_state.md R42, R43, R26, R28, R34,
R60), the one fault a run from reset can end in, and runs. -/

namespace Sys2Proof.Machine

/-- The transmit invariants (R42), with the range of `TX_ERR` (R22) and of `TX_FRAME` (R26). -/
structure TxInv (s : State) : Prop where
  sending : s.txState = .sending →
    s.txLen.toNat ≤ 4095 ∧ s.txErr = .none ∧ s.txDone = false ∧ s.txFrame.toNat < nframes s.txLen.toNat
  done : s.txState = .idle → s.txDone = true → s.txErr = .none ∧ s.txFrame.toNat = nframes s.txLen.toNat
  tooLarge : s.txErr = .payloadTooLarge →
    s.txState = .idle ∧ s.txDone = false ∧ s.txFrame = 0#10 ∧ 4095 < s.txLen.toNat
  errRange : s.txErr = .none ∨ s.txErr = .payloadTooLarge
  frameMax : s.txFrame.toNat ≤ 683

/-- The receive invariants (R43, R28). -/
structure RxInv (s : State) : Prop where
  awaitFs : s.rxState = .awaitFs → s.rxErr = .none ∧ s.rxRemaining = 0#12 ∧ s.rxSeq = 1#4
  awaitCf : s.rxState = .awaitCf →
    s.rxErr = .none ∧ 7 ≤ s.rxTotal.toNat ∧ 1 ≤ s.rxRemaining.toNat ∧ s.rxRemaining.toNat ≤ s.rxTotal.toNat - 5 ∧
    (writePointer s - 5) % 6 = 0 ∧ s.rxSeq.toNat = ((writePointer s - 5) / 6 + 1) % 16
  complete : s.rxState = .complete → s.rxErr = .none ∧ s.rxRemaining = 0#12
  failed : s.rxState = .failed → s.rxErr = .framing ∨ s.rxErr = .sequence

/-- The buffer invariants: both in canonical form, `RXBUF[4095]` never written (R34, R60), and every byte received so far
in place (R32, R175). -/
structure BufInv (s : State) : Prop where
  txWf : Memory.wf s.txbuf = true
  rxWf : Memory.wf s.rxbuf = true
  rxSpare : Memory.read s.rxbuf 4095 = none
  partialMessage : s.rxState = .awaitCf → ∀ i < writePointer s, (Memory.read s.rxbuf i).isSome = true
  wholeMessage : s.rxState = .complete → ∀ i < s.rxTotal.toNat, (Memory.read s.rxbuf i).isSome = true

/-- The invariant of the block. -/
structure Inv (s : State) : Prop where
  tx : TxInv s
  rx : RxInv s
  buf : BufInv s

/-- A step that does not go wrong: it answers a next state, or stops at the one fault the spec gives a model (R16, R234). -/
def safeOutcome : Host.Outcome State Fault Refusal → Prop
  | .next _ => True
  | .fault f => f = .unwrittenRead
  | .refused _ => False

/-- `n` steps, stopping at the first fault or refusal. -/
def run : Nat → State → Host.Outcome State Fault Refusal
  | 0, s => .next s
  | n + 1, s =>
    match step s with
    | .next t => run n t
    | .fault f => .fault f
    | .refused r => .refused r

/-- `TXBUF[0 .. |m| - 1]` holds the message `m` (R54). -/
def txHolds (s : State) (m : List Byte) : Prop := ∀ i < m.length, Memory.read s.txbuf i = m[i]?

/-- `RXBUF[0 .. |m| - 1]` holds the message `m` (R54). -/
def rxHolds (s : State) (m : List Byte) : Prop := ∀ i < m.length, Memory.read s.rxbuf i = m[i]?

/-! ## What a step leaves as it was -/

/-- The transmit registers of `t` are those of `s`. -/
def sameTxRegs (s t : State) : Prop :=
  t.txState = s.txState ∧ t.txErr = s.txErr ∧ t.txDone = s.txDone ∧ t.txLen = s.txLen ∧ t.txNad = s.txNad ∧
  t.txFrame = s.txFrame

/-- The receive registers of `t` are those of `s`. -/
def sameRxRegs (s t : State) : Prop :=
  t.rxState = s.rxState ∧ t.rxErr = s.rxErr ∧ t.rxTotal = s.rxTotal ∧ t.rxRemaining = s.rxRemaining ∧ t.rxSeq = s.rxSeq

/-- Every cell of `TXBUF` reads as before. -/
def sameTxbuf (s t : State) : Prop := ∀ i, Memory.read t.txbuf i = Memory.read s.txbuf i

/-- Every cell of `RXBUF` reads as before. -/
def sameRxbuf (s t : State) : Prop := ∀ i, Memory.read t.rxbuf i = Memory.read s.rxbuf i

/-- The transmit side, registers and buffer, is as before. -/
def sameTx (s t : State) : Prop := sameTxRegs s t ∧ sameTxbuf s t

/-- The receive side, registers and buffer, is as before. -/
def sameRx (s t : State) : Prop := sameRxRegs s t ∧ sameRxbuf s t

/-- The response registers are as before. -/
def sameResponse (s t : State) : Prop := t.rspOk = s.rspOk ∧ t.rspData = s.rspData

/-- The environment's lists are as before. -/
def sameEnv (s t : State) : Prop := t.inputs = s.inputs ∧ t.linkIn = s.linkIn ∧ t.linkOut = s.linkOut

/-! ## Command words, by the bits of spec/30_encoding.md R81, R84 and spec/40_host_commands.md R107 -/

/-- `OP`, by arithmetic on the word. -/
def opOf (w : Word32) : Nat := w.toNat % 16

/-- A defined `OP` with a bit set that must be zero, field by field as R84 lists them: `w[31:4]` for NOP and RX_ACK, `w[31:24]`
for TXB_WR, `w[31:28]` for TX_START, `w[31:24]` and `w[11:4]` for RXB_RD. -/
def malformed (w : Word32) : Prop :=
  (opOf w = 0 ∧ w.toNat / 2 ^ 4 ≠ 0) ∨ (opOf w = 1 ∧ w.toNat / 2 ^ 24 ≠ 0) ∨ (opOf w = 2 ∧ w.toNat / 2 ^ 28 ≠ 0) ∨
  (opOf w = 3 ∧ (w.toNat / 2 ^ 24 ≠ 0 ∨ w.toNat / 2 ^ 4 % 2 ^ 8 ≠ 0)) ∨ (opOf w = 4 ∧ w.toNat / 2 ^ 4 ≠ 0)

/-- The table of R107: when a word is rejected. -/
def rejectedWord (w : Word32) (s : State) : Prop :=
  5 ≤ opOf w ∨ malformed w ∨ (s.txState = .sending ∧ (opOf w = 1 ∨ opOf w = 2)) ∨
  ((s.rxState = .awaitFs ∨ s.rxState = .awaitCf) ∧ opOf w = 4)

/-- The word of `TX_START len, nad` (R81). -/
def txStartWord (len : BitVec 16) (nad : Byte) : Word32 := 0#4 ++ len ++ nad ++ 2#4

/-- The word of `RX_ACK` (R81). -/
def rxAckWord : Word32 := 4#32

/-- The word of `RXB_RD idx` (R81). -/
def rxbRdWord (idx : BitVec 12) : Word32 := 0#8 ++ idx ++ 0#8 ++ 3#4

/-- A reset step's input. -/
def isReset : Input → Bool
  | .reset _ _ _ => true
  | .command _ => false
  | .linkReady => false
  | .linkOffer => false

/-- How many bytes of a frame's data area can matter in state `s`: those its type and length make significant, and the
length byte of a First frame (R160). -/
def significantBytes (pci : Byte) (s : State) : Nat :=
  if pciType pci = 0#4 then (pciLow pci).toNat
  else if pciType pci = 1#4 then 6
  else if pciType pci = 2#4 then appendLen s
  else 0

end Sys2Proof.Machine
end

