-- ==== Sys2Proof/Certificates/Slice0/Obligations.lean ====
section
/-! DEFINITION. The statements for the provers, from the numbered rules of spec/. A frame of an instruction is written with
`sameTx`, `sameRx`, `sameResponse` and `sameEnv` of Sys2Proof/Safety.lean: a buffer is compared through its read, cell by
cell. -/

open Sys2Proof Sys2Proof.Machine

/-! ## Encoding -/

/-- Decoding an encoded well-formed instruction gives it back (30_encoding.md sections 1, 2 and 4). -/
def Obligations.DecodeEncodeRoundTrip : Prop :=
  ∀ i : Instr, WellFormed i = true → decode (encode i) = .ok i

/-- What decodes is well-formed and encodes to the very word or frame it came from (30_encoding.md sections 1, 2 and 4). -/
def Obligations.EncodeDecodeRoundTrip : Prop :=
  ∀ (e : Encoded) (i : Instr), decode e = .ok i → WellFormed i = true ∧ encode i = e

/-- The decoder refuses exactly the command words of R84: a defined `OP` with a set must-be-zero bit. That it refuses them,
and the step rejects them, is how the model splits R84 (log entry 5). -/
def Obligations.DecoderRefusesExactlyMalformedWords : Prop :=
  ∀ w : Word32, (∃ e, decode (.command w) = .error e) ↔ malformed w

/-- R84: a word with a defined `OP` and a set must-be-zero bit is rejected and nothing else changes. -/
def Obligations.MalformedWordIsRejected : Prop :=
  ∀ (s : State) (w : Word32) (rest : List Input), s.inputs = .command w :: rest → malformed w →
    step s = .next { s with inputs := rest, rspOk := false, rspData := 0#8 }

/-- R85: a word with `OP` 5 to 15 is rejected whatever its other bits, and nothing else changes. -/
def Obligations.ReservedWordIsRejected : Prop :=
  ∀ (s : State) (w : Word32) (rest : List Input), s.inputs = .command w :: rest → 5 ≤ opOf w →
    step s = .next { s with inputs := rest, rspOk := false, rspData := 0#8 }

/-- The four reserved rows complete in every state with the rejection of R85. -/
def Obligations.ReservedCommandsComplete : Prop :=
  ∀ (s : State) (op : BitVec 4) (rest : BitVec 28),
    exec (.reservedOp5 rest) s = .next { s with rspOk := false, rspData := 0#8 } ∧
    exec (.reservedOp6 rest) s = .next { s with rspOk := false, rspData := 0#8 } ∧
    exec (.reservedOp7 rest) s = .next { s with rspOk := false, rspData := 0#8 } ∧
    exec (.reservedOp8_15 op rest) s = .next { s with rspOk := false, rspData := 0#8 }

/-- Words written out in 95_test_vectors.md section 2.1 decode to the instructions given there: V-E1 to V-E5, V-E15, and the
First frame opening V-F7. -/
def Obligations.WrittenWordsDecode : Prop :=
  decode (.command 0x00000221#32) = .ok (.txbWr 0#12 0x22#8) ∧
  decode (.command 0x000030A2#32) = .ok (.txStart 3#16 0x0A#8) ∧
  decode (.command 0x010000A2#32) = .ok (.txStart 4096#16 0x0A#8) ∧
  decode (.command 0x00FFFFF1#32) = .ok (.txbWr 4095#12 0xFF#8) ∧
  decode (.command 0x00002003#32) = .ok (.rxbRd 2#12) ∧
  decode (.frame 0xFFFFFF341222030A#64) =
    .ok (.sf 0x0A#8 3#4 { b2 := 0x22#8, b3 := 0x12#8, b4 := 0x34#8, b5 := 0xFF#8, b6 := 0xFF#8, b7 := 0xFF#8 }) ∧
  decode (.frame 0x05040302010D100A#64) =
    .ok (.ff 0x0A#8 13#12 { b3 := 1#8, b4 := 2#8, b5 := 3#8, b6 := 4#8, b7 := 5#8 })

/-- The packing of 20_memory.md section 2: byte `k` of a frame is bits `8k+7 : 8k` of its port value, and a port value is the
packing of the frame it is read as. -/
def Obligations.PortPackingIsBytewise : Prop :=
  (∀ (f : Frame) (k : Nat), k < 8 → f.bytes[k]? = some ((packFrame f).extractLsb' (8 * k) 8)) ∧
  (∀ p : PortFrame, packFrame (unpackFrame p) = p)

/-! ## The step -/

/-- A Host step runs the instruction its word decodes to, on the state whose first input is taken. -/
def Obligations.StepRunsDecodedCommand : Prop :=
  ∀ (s : State) (w : Word32) (rest : List Input) (i : Instr),
    s.inputs = .command w :: rest → decode (.command w) = .ok i → step s = exec i { s with inputs := rest }

/-- The Link's turn to offer, in a state that consumes frames, takes the frame from the Link and runs the instruction it
decodes to. -/
def Obligations.StepRunsDecodedFrame : Prop :=
  ∀ (s : State) (p : PortFrame) (rest : List Input) (later : List PortFrame) (i : Instr),
    s.inputs = .linkOffer :: rest → s.linkIn = p :: later → (s.rxState = .awaitFs ∨ s.rxState = .awaitCf) →
    decode (.frame p) = .ok i → step s = exec i { s with inputs := rest, linkIn := later }

/-- The step by the handshakes of 10_state.md section 5: a reset step exactly when `rst = 1`, else a Host step when
`cmd_valid = 1`, a Framer step when `ltx_valid` and `ltx_ready` are 1, a Reassembler step when `lrx_valid` and `lrx_ready`
are 1, and else no agent steps. That the inputs stand in a list of the state is the model's (log entry 1). -/
def Obligations.StepFollowsHandshakes : Prop :=
  ∀ s : State,
    ((inPorts s).rst = true → step s = .next (resetBlock { s with inputs := s.inputs.tail })) ∧
    ((inPorts s).rst = false → (inPorts s).cmdValid = true →
      step s = hostStep (inPorts s).cmdWord { s with inputs := s.inputs.tail }) ∧
    ((inPorts s).rst = false → (inPorts s).ltxReady = true → (outPorts s).ltxValid = true →
      step s = framerStep { s with inputs := s.inputs.tail }) ∧
    ((inPorts s).rst = false → (inPorts s).lrxValid = true → (outPorts s).lrxReady = true →
      step s = consume (inPorts s).lrxFrame { s with inputs := s.inputs.tail, linkIn := s.linkIn.tail }) ∧
    ((inPorts s).rst = false → (inPorts s).cmdValid = false →
      ((inPorts s).ltxReady && (outPorts s).ltxValid) = false →
      ((inPorts s).lrxValid && (outPorts s).lrxReady) = false →
      step s = .next { s with inputs := s.inputs.tail })

/-- R174: in `COMPLETE` and `FAILED` `lrx_ready = 0`, an offered frame stays with the Link and nothing of the block changes;
`RX_STATE` changes in no step but an RX_ACK or a reset. -/
def Obligations.EndedReadConsumesNothing : Prop :=
  (∀ (s : State) (rest : List Input), (s.rxState = .complete ∨ s.rxState = .failed) → s.inputs = .linkOffer :: rest →
    lrxReady s = false ∧ step s = .next { s with inputs := rest }) ∧
  (∀ s t : State, (s.rxState = .complete ∨ s.rxState = .failed) → step s = .next t → t.rxState ≠ s.rxState →
    ∃ e rest, s.inputs = e :: rest ∧ (isReset e = true ∨ e = .command rxAckWord))

/-! ## Host commands -/

/-- NOP completes in every state and changes the response registers alone (R101's pseudocode). -/
def Obligations.NopOnlyAnswers : Prop :=
  ∀ s : State, ∃ t, exec .nop s = .next t ∧ t.rspOk = true ∧ t.rspData = 0#8 ∧ sameTx s t ∧ sameRx s t ∧ sameEnv s t

/-- TXB_WR in `IDLE` writes its one cell, every other cell and register being as before (R102's pseudocode). -/
def Obligations.TxbWrWritesOneCell : Prop :=
  ∀ (s : State) (idx : BitVec 12) (data : Byte), s.txState = .idle →
    ∃ t, exec (.txbWr idx data) s = .next t ∧ t.rspOk = true ∧ t.rspData = 0#8 ∧
      (∀ i, Memory.read t.txbuf i = if i = idx.toNat then some data else Memory.read s.txbuf i) ∧
      sameTxRegs s t ∧ sameRx s t ∧ sameEnv s t

/-- While `SENDING`, TXB_WR and TX_START of any length are rejected and change the response registers alone (the guards of
R102, R103 and R208). -/
def Obligations.SendingRejectsTransmitCommands : Prop :=
  ∀ (s : State) (idx : BitVec 12) (data : Byte) (len : BitVec 16) (nad : Byte), s.txState = .sending →
    exec (.txbWr idx data) s = .next { s with rspOk := false, rspData := 0#8 } ∧
    exec (.txStart len nad) s = .next { s with rspOk := false, rspData := 0#8 }

/-- TX_START of a legal length in `IDLE` starts the message (R103's pseudocode). -/
def Obligations.TxStartStartsLegalMessage : Prop :=
  ∀ (s : State) (len : BitVec 16) (nad : Byte), s.txState = .idle → len.toNat ≤ 4095 →
    ∃ t, exec (.txStart len nad) s = .next t ∧ t.rspOk = true ∧ t.rspData = 0#8 ∧
      t.txState = .sending ∧ t.txErr = .none ∧ t.txDone = false ∧ t.txLen = len ∧ t.txNad = nad ∧ t.txFrame = 0#10 ∧
      sameTxbuf s t ∧ sameRx s t ∧ sameEnv s t

/-- R201: an accepted TX_START over 4095 bytes records `PayloadTooLarge` and the offending length, offers no frame, and a
retry fails again. -/
def Obligations.OversizeStartRecordsPayloadTooLarge : Prop :=
  ∀ (s : State) (len : BitVec 16) (nad : Byte), s.txState = .idle → 4095 < len.toNat →
    ∃ t, exec (.txStart len nad) s = .next t ∧ t.rspOk = true ∧ t.rspData = 0#8 ∧
      t.txState = .idle ∧ t.txErr = .payloadTooLarge ∧ t.txDone = false ∧ t.txLen = len ∧ t.txNad = nad ∧
      t.txFrame = 0#10 ∧ (outPorts t).ltxValid = false ∧
      sameTxbuf s t ∧ sameRx s t ∧ sameEnv s t ∧
      ∃ u, exec (.txStart len nad) t = .next u ∧ u.txErr = .payloadTooLarge ∧ u.txState = .idle

/-- RXB_RD of a written cell answers its byte in every state and changes nothing else (R104's pseudocode). -/
def Obligations.RxbRdAnswersCell : Prop :=
  ∀ (s : State) (idx : BitVec 12) (b : Byte), Memory.read s.rxbuf idx.toNat = some b →
    ∃ t, exec (.rxbRd idx) s = .next t ∧ t.rspOk = true ∧ t.rspData = b ∧ sameTx s t ∧ sameRx s t ∧ sameEnv s t

/-- RXB_RD of a cell nothing has written since reset is the fault `UnwrittenRead`, and only that (the model's fault of
R104 and R234). -/
def Obligations.RxbRdFaultsExactlyOnUnwrittenCell : Prop :=
  ∀ (s : State) (idx : BitVec 12), exec (.rxbRd idx) s = .fault .unwrittenRead ↔ Memory.read s.rxbuf idx.toNat = none

/-- RX_ACK ends a read that is complete or failed, keeping `RX_TOTAL` and `RXBUF`, and is rejected in the other two states
(R105's pseudocode). -/
def Obligations.RxAckEndsReadOrIsRejected : Prop :=
  (∀ s : State, (s.rxState = .complete ∨ s.rxState = .failed) →
    ∃ t, exec .rxAck s = .next t ∧ t.rspOk = true ∧ t.rspData = 0#8 ∧
      t.rxState = .awaitFs ∧ t.rxErr = .none ∧ t.rxRemaining = 0#12 ∧ t.rxSeq = 1#4 ∧ t.rxTotal = s.rxTotal ∧
      sameRxbuf s t ∧ sameTx s t ∧ sameEnv s t) ∧
  (∀ s : State, (s.rxState = .awaitFs ∨ s.rxState = .awaitCf) →
    exec .rxAck s = .next { s with rspOk := false, rspData := 0#8 })

/-- R36: the response registers after every Host step, `RSP_OK` by whether the word is rejected (the conditions are those of
40_host_commands.md section 2), `RSP_DATA` the byte an accepted RXB_RD read and zero otherwise; and their reset values. -/
def Obligations.HostStepsAnswer : Prop :=
  (∀ (s t : State) (w : Word32) (rest : List Input), s.inputs = .command w :: rest → step s = .next t →
    (rejectedWord w s → t.rspOk = false ∧ t.rspData = 0#8) ∧
    (¬ rejectedWord w s → t.rspOk = true) ∧
    (¬ rejectedWord w s → opOf w = 3 → Memory.read s.rxbuf (w.toNat / 4096 % 4096) = some t.rspData) ∧
    (¬ rejectedWord w s → opOf w ≠ 3 → t.rspData = 0#8)) ∧
  State.reset.rspOk = false ∧ State.reset.rspData = 0#8

/-- A word that the table of rejections of 40_host_commands.md section 2 rejects changes nothing but the response, and the
Host's step always answers it ("A word is rejected exactly when one of these holds"). -/
def Obligations.RejectedWordChangesOnlyResponse : Prop :=
  ∀ (s : State) (w : Word32) (rest : List Input), s.inputs = .command w :: rest → rejectedWord w s →
    step s = .next { s with inputs := rest, rspOk := false, rspData := 0#8 }

/-- R208: while `SENDING` a well-formed TX_START is rejected before its length is looked at, so an oversize one does not touch
`TX_ERR`; in `IDLE` the length check decides; a reserved `OP` or a set must-be-zero bit rejects a word before any guard. -/
def Obligations.CommandChecksInOrder : Prop :=
  ∀ (s : State) (w : Word32) (rest : List Input), s.inputs = .command w :: rest →
    ((5 ≤ opOf w ∨ malformed w) → step s = .next { s with inputs := rest, rspOk := false, rspData := 0#8 }) ∧
    (¬ malformed w → (opOf w = 1 ∨ opOf w = 2) → s.txState = .sending →
      step s = .next { s with inputs := rest, rspOk := false, rspData := 0#8 }) ∧
    (¬ malformed w → opOf w = 4 → (s.rxState = .awaitFs ∨ s.rxState = .awaitCf) →
      step s = .next { s with inputs := rest, rspOk := false, rspData := 0#8 }) ∧
    (¬ malformed w → opOf w = 2 → s.txState = .idle →
      ∃ t, step s = .next t ∧ t.rspOk = true ∧
        t.txErr = if 4095 < w.toNat / 4096 % 65536 then .payloadTooLarge else .none)

/-! ## Framer -/

/-- One Framer step hands exactly the frame of index `TX_FRAME` to the Link, counts it, and ends the message after the last
one (R137's pseudocode). Only the cells this frame carries need be written. -/
def Obligations.FramerEmitsNextFrame : Prop :=
  ∀ (s : State) (m : List Byte) (k : Nat) (rest : List Input),
    s.inputs = .linkReady :: rest → s.txState = .sending → m.length ≤ 4095 → s.txLen.toNat = m.length →
    s.txFrame.toNat = k → k < nframes m.length →
    (∀ i, sliceStart k ≤ i → i < sliceStart k + sliceLen m.length k → Memory.read s.txbuf i = m[i]?) →
    ∃ t, step s = .next t ∧
      t.linkOut = s.linkOut ++ [packFrame (frameOf s.txNad m.length k (sliceOf m k))] ∧
      t.txFrame.toNat = k + 1 ∧
      (k + 1 = nframes m.length → t.txState = .idle ∧ t.txDone = true) ∧
      (k + 1 ≠ nframes m.length → t.txState = .sending ∧ t.txDone = s.txDone) ∧
      t.txErr = s.txErr ∧ t.txLen = s.txLen ∧ t.txNad = s.txNad ∧ sameTxbuf s t ∧ sameRx s t ∧ sameResponse s t ∧
      t.inputs = rest ∧ t.linkIn = s.linkIn

/-- A Framer step that would read a cell nothing has written since reset is the fault `UnwrittenRead` (the model's fault of
R137 and R234); a stale cell is not one. -/
def Obligations.FramerFaultsOnUnwrittenCell : Prop :=
  ∀ (s : State) (rest : List Input) (i : Nat),
    s.inputs = .linkReady :: rest → s.txState = .sending → s.txLen.toNat ≤ 4095 →
    s.txFrame.toNat < nframes s.txLen.toNat →
    sliceStart s.txFrame.toNat ≤ i → i < sliceStart s.txFrame.toNat + sliceLen s.txLen.toNat s.txFrame.toNat →
    Memory.read s.txbuf i = none → step s = .fault .unwrittenRead

/-- R132, R133: the bytes of a Single frame and of the First frame of a message. -/
def Obligations.SingleAndFirstFrameBytes : Prop :=
  ∀ (nad : Byte) (m : List Byte),
    (m.length ≤ 6 → (encodeFrames nad m).map Frame.bytes =
      [[nad, 0x00#8 ||| BitVec.ofNat 8 m.length] ++ m ++ List.replicate (6 - m.length) 0xFF#8]) ∧
    (7 ≤ m.length → m.length ≤ 4095 → ((encodeFrames nad m)[0]?).map Frame.bytes =
      some ([nad, 0x10#8 ||| BitVec.ofNat 8 (m.length / 256), BitVec.ofNat 8 (m.length % 256)] ++ m.take 5))

/-- The bytes of a Consecutive frame, and how many message bytes it carries (41_framer.md section 1). -/
def Obligations.ConsecutiveFrameBytes : Prop :=
  ∀ (nad : Byte) (m : List Byte) (k n : Nat), 7 ≤ m.length → m.length ≤ 4095 → 1 ≤ k → k < nframes m.length →
    n = min 6 (m.length - (6 * k - 1)) →
    ((encodeFrames nad m)[k]?).map Frame.bytes =
      some ([nad, 0x20#8 ||| BitVec.ofNat 8 (k % 16)] ++ (m.drop (6 * k - 1)).take n ++ List.replicate (6 - n) 0xFF#8) ∧
    1 ≤ n ∧ (k + 1 < nframes m.length → n = 6)

/-- The frames of a message carry its bytes exactly once and in order ("Every message byte is therefore sent exactly once, in
order", 41_framer.md section 3). -/
def Obligations.FramesCoverMessage : Prop :=
  ∀ m : List Byte, m.length ≤ 4095 → (List.range (nframes m.length)).flatMap (fun k => sliceOf m k) = m

/-- A Consecutive frame carries sequence number 0 exactly for messages of at least 96 bytes, and a message needs 17
Consecutive frames exactly from 102 bytes on (41_framer.md section 3, 90_conflicts.md C3). -/
def Obligations.SequenceWrapThresholds : Prop :=
  ∀ len : Nat, 7 ≤ len → len ≤ 4095 →
    ((∃ k, 1 ≤ k ∧ k < nframes len ∧ seqOf k = 0#4) ↔ 96 ≤ len) ∧ (17 ≤ nframes len - 1 ↔ 102 ≤ len)

/-- No step hands the Link a frame of a reserved type, a Single frame over 6 bytes or a First frame under 7 (41_framer.md
section 3, "What the Framer never emits"). -/
def Obligations.FramerNeverEmitsIllegalFrame : Prop :=
  ∀ (s t : State) (p : PortFrame), step s = .next t → t.linkOut = s.linkOut ++ [p] →
    ∃ i, decode (.frame p) = .ok i ∧
      ((∃ dl d, i = .sf s.txNad dl d ∧ dl.toNat ≤ 6) ∨ (∃ dl d, i = .ff s.txNad dl d ∧ 7 ≤ dl.toNat) ∨
       (∃ sn d, i = .cf s.txNad sn d))

/-- R138: the Framer step of the last frame ends the message, with `TX_FRAME = NFRAMES(TX_LEN)`; nothing else ends it but
reset. -/
def Obligations.OnlyLastFrameOrResetEndsMessage : Prop :=
  ∀ s t : State, s.txState = .sending → step s = .next t →
    ((∃ rest, s.inputs = .linkReady :: rest) → s.txFrame.toNat + 1 = nframes s.txLen.toNat →
      t.txState = .idle ∧ t.txDone = true ∧ t.txFrame.toNat = nframes s.txLen.toNat) ∧
    (t.txState = .idle →
      (∃ e rest, s.inputs = e :: rest ∧ isReset e = true) ∨
      ((∃ rest, s.inputs = .linkReady :: rest) ∧ s.txFrame.toNat + 1 = nframes s.txLen.toNat))

/-- No step but a reset changes the message being sent or its address ("No later write can reach a message already being
sent", 20_memory.md section 4). -/
def Obligations.MessageStableWhileSending : Prop :=
  ∀ s t : State, s.txState = .sending → step s = .next t → (∀ e rest, s.inputs = e :: rest → isReset e = false) →
    t.txbuf = s.txbuf ∧ t.txLen = s.txLen ∧ t.txNad = s.txNad

/-- The headline of the transmit side: an accepted TX_START of a written message and then one acceptance by the Link per frame
hand over exactly `Encode(nad, m)`, in order, and end with the message done ("the frames emitted for an accepted legal TX_START
are exactly `Encode(TX_NAD, TXBUF[0 .. TX_LEN − 1])`, in order", 41_framer.md section 1). -/
def Obligations.TransmitRunEmitsEncodeInOrder : Prop :=
  ∀ (s : State) (m : List Byte) (nad : Byte) (rest : List Input),
    s.txState = .idle → m.length ≤ 4095 → txHolds s m →
    s.inputs = .command (txStartWord (BitVec.ofNat 16 m.length) nad) ::
      (List.replicate (nframes m.length) .linkReady ++ rest) →
    ∃ t fs, run (nframes m.length + 1) s = .next t ∧ encodeMessage nad m = .ok fs ∧
      t.linkOut = s.linkOut ++ fs.map packFrame ∧
      t.txState = .idle ∧ t.txDone = true ∧ t.txErr = .none ∧ t.txFrame.toNat = nframes m.length ∧
      t.txLen.toNat = m.length ∧ t.txNad = nad ∧
      sameTxbuf s t ∧ sameRx s t ∧ t.inputs = rest ∧ t.linkIn = s.linkIn

/-! ## Reassembler -/

/-- R165: a legal Single frame in `AWAIT_FS` completes the read; it writes its bytes and nothing else of `RXBUF`. -/
def Obligations.LegalSingleFrameCompletesRead : Prop :=
  ∀ (s : State) (nad : Byte) (dl : BitVec 4) (d : DataArea), s.rxState = .awaitFs → dl.toNat ≤ 6 →
    ∃ t, exec (.sf nad dl d) s = .next t ∧
      t.rxState = .complete ∧ t.rxTotal.toNat = dl.toNat ∧ t.rxRemaining = 0#12 ∧ t.rxErr = s.rxErr ∧ t.rxSeq = s.rxSeq ∧
      (∀ i, Memory.read t.rxbuf i = if i < dl.toNat then d.bytes[i]? else Memory.read s.rxbuf i) ∧
      sameTx s t ∧ sameResponse s t ∧ sameEnv s t

/-- R167: a legal First frame in `AWAIT_FS` opens a message. -/
def Obligations.LegalFirstFrameOpensMessage : Prop :=
  ∀ (s : State) (nad : Byte) (dl : BitVec 12) (d : FirstData), s.rxState = .awaitFs → 7 ≤ dl.toNat →
    ∃ t, exec (.ff nad dl d) s = .next t ∧
      t.rxState = .awaitCf ∧ t.rxTotal = dl ∧ t.rxRemaining.toNat = dl.toNat - 5 ∧ t.rxSeq = 1#4 ∧ t.rxErr = s.rxErr ∧
      (∀ i, Memory.read t.rxbuf i = if i < 5 then d.bytes[i]? else Memory.read s.rxbuf i) ∧
      sameTx s t ∧ sameResponse s t ∧ sameEnv s t

/-- R166, R168, R169, R170: every other frame in `AWAIT_FS` fails the read with `FRAMING`; `RX_STATE` and `RX_ERR` alone
change. -/
def Obligations.OtherFramesFailWhileAwaitingFirst : Prop :=
  ∀ (s : State) (nad : Byte) (dl sn lo type : BitVec 4) (fdl : BitVec 12) (d : DataArea) (fd : FirstData),
    s.rxState = .awaitFs →
    (7 ≤ dl.toNat → exec (.sf nad dl d) s = .next { s with rxState := .failed, rxErr := .framing }) ∧
    (fdl.toNat < 7 → exec (.ff nad fdl fd) s = .next { s with rxState := .failed, rxErr := .framing }) ∧
    exec (.cf nad sn d) s = .next { s with rxState := .failed, rxErr := .framing } ∧
    exec (.reservedType3 nad lo d) s = .next { s with rxState := .failed, rxErr := .framing } ∧
    exec (.reservedType4_7 nad type lo d) s = .next { s with rxState := .failed, rxErr := .framing } ∧
    exec (.reservedType8_F nad type lo d) s = .next { s with rxState := .failed, rxErr := .framing }

/-- R171: a Consecutive frame with the expected sequence number appends `min(6, RX_REMAINING)` bytes at the write pointer. The
premise on `RX_REMAINING` holds in every reachable state (Obligations.StepKeepsInvariant). -/
def Obligations.MatchingConsecutiveFrameAppends : Prop :=
  ∀ (s : State) (nad : Byte) (sn : BitVec 4) (d : DataArea) (n : Nat), s.rxState = .awaitCf → sn = s.rxSeq →
    s.rxRemaining.toNat ≤ s.rxTotal.toNat → n = min 6 s.rxRemaining.toNat →
    ∃ t, exec (.cf nad sn d) s = .next t ∧
      t.rxRemaining.toNat = s.rxRemaining.toNat - n ∧ t.rxSeq.toNat = (s.rxSeq.toNat + 1) % 16 ∧
      t.rxState = (if s.rxRemaining.toNat - n = 0 then .complete else .awaitCf) ∧
      t.rxTotal = s.rxTotal ∧ t.rxErr = s.rxErr ∧
      (∀ i, Memory.read t.rxbuf i =
        if s.rxTotal.toNat - s.rxRemaining.toNat ≤ i ∧ i < s.rxTotal.toNat - s.rxRemaining.toNat + n
        then d.bytes[i - (s.rxTotal.toNat - s.rxRemaining.toNat)]? else Memory.read s.rxbuf i) ∧
      sameTx s t ∧ sameResponse s t ∧ sameEnv s t

/-- R203: any other sequence number fails the read with `SEQUENCE`; `RX_STATE` and `RX_ERR` alone change, so `RX_SEQ` still
shows the number expected. -/
def Obligations.WrongSequenceNumberFailsRead : Prop :=
  ∀ (s : State) (nad : Byte) (sn : BitVec 4) (d : DataArea), s.rxState = .awaitCf → sn ≠ s.rxSeq →
    exec (.cf nad sn d) s = .next { s with rxState := .failed, rxErr := .sequence }

/-- Every frame of another type in `AWAIT_CF` fails the read with `FRAMING`, whatever its low nibble ("The type is checked
before the sequence number", 42_reassembler.md section 2). -/
def Obligations.OtherTypesFailWhileAwaitingConsecutive : Prop :=
  ∀ (s : State) (nad : Byte) (dl lo type : BitVec 4) (fdl : BitVec 12) (d : DataArea) (fd : FirstData),
    s.rxState = .awaitCf →
    exec (.sf nad dl d) s = .next { s with rxState := .failed, rxErr := .framing } ∧
    exec (.ff nad fdl fd) s = .next { s with rxState := .failed, rxErr := .framing } ∧
    exec (.reservedType3 nad lo d) s = .next { s with rxState := .failed, rxErr := .framing } ∧
    exec (.reservedType4_7 nad type lo d) s = .next { s with rxState := .failed, rxErr := .framing } ∧
    exec (.reservedType8_F nad type lo d) s = .next { s with rxState := .failed, rxErr := .framing }

/-- R164, and the padding of 42_reassembler.md section 1: frames that agree on the PCI byte and on the significant bytes of the
data area have the same outcome, whatever their address and their padding. -/
def Obligations.AddressAndPaddingDoNotMatter : Prop :=
  ∀ (s : State) (f g : Frame), f.pci = g.pci →
    (∀ j < significantBytes f.pci s, f.data.bytes[j]? = g.data.bytes[j]?) →
    consume (packFrame f) s = consume (packFrame g) s

/-- `Decode` depends on nothing an earlier read left in the block (42_reassembler.md section 3). -/
def Obligations.DecodeIgnoresEarlierReads : Prop :=
  ∀ (s t : State) (fs : List Frame), s.rxState = .awaitFs → t.rxState = .awaitFs → decodeFrom 0 s fs = decodeFrom 0 t fs

/-- The round trip on functions: decoding the encoding of a message gives the message and consumes every frame
("`Decode(Encode(nad, m)) = Complete(m, NFRAMES(|m|))`", 42_reassembler.md section 3). -/
def Obligations.DecodeOfEncodeIsComplete : Prop :=
  ∀ (s : State) (nad : Byte) (m : List Byte), s.rxState = .awaitFs → m.length ≤ 4095 →
    ∃ fs, encodeMessage nad m = .ok fs ∧ decodeFrom 0 s fs = .complete m (nframes m.length)

/-- The round trip through two blocks step by step: what one block sends for a TX_START, offered in order to another block
awaiting a first frame, is received as the message, with every frame consumed. -/
def Obligations.LoopbackReconstructsMessage : Prop :=
  ∀ (s t u : State) (m : List Byte) (nad : Byte) (rest rest' : List Input) (later : List PortFrame),
    s.txState = .idle → m.length ≤ 4095 → txHolds s m →
    s.inputs = .command (txStartWord (BitVec.ofNat 16 m.length) nad) ::
      (List.replicate (nframes m.length) .linkReady ++ rest) →
    run (nframes m.length + 1) s = .next t →
    u.rxState = .awaitFs → u.linkIn = t.linkOut.drop s.linkOut.length ++ later →
    u.inputs = List.replicate (nframes m.length) .linkOffer ++ rest' →
    ∃ v, run (nframes m.length) u = .next v ∧ v.rxState = .complete ∧ v.rxTotal.toNat = m.length ∧ v.rxErr = u.rxErr ∧
      rxHolds v m ∧ message v = some m ∧ v.linkIn = later ∧ v.inputs = rest' ∧ sameTx u v ∧ sameResponse u v

/-- A Consecutive frame left over from a failed read is, after the next RX_ACK, consumed as a framing error ("Each is consumed
after the next RX_ACK and is a `FramingError`", 70_reset_and_hazards.md section 2). -/
def Obligations.StaleConsecutiveFrameFailsAgain : Prop :=
  ∀ (s : State) (rest : List Input) (p : PortFrame) (later : List PortFrame),
    s.rxState = .failed → s.inputs = .command rxAckWord :: .linkOffer :: rest → s.linkIn = p :: later →
    pciType (portByte p 1) = 2#4 →
    ∃ t, run 2 s = .next t ∧ t.rxState = .failed ∧ t.rxErr = .framing ∧ t.rxTotal = s.rxTotal ∧ t.rxRemaining = 0#12 ∧
      t.rxSeq = 1#4 ∧ sameRxbuf s t ∧ sameTx s t ∧ t.linkIn = later ∧ t.inputs = rest

/-! ## The whole machine -/

/-- R230, R231: a reset step writes every register its reset value and leaves every buffer cell unwritten, whatever the other
input ports carry: no command is performed, no frame is emitted and none is consumed. -/
def Obligations.ResetStepRestoresEverything : Prop :=
  ∀ (s : State) (cmd : Option Word32) (ready offer : Bool) (rest : List Input),
    s.inputs = .reset cmd ready offer :: rest →
    ∃ t, step s = .next t ∧
      t.txState = .idle ∧ t.txErr = .none ∧ t.txDone = false ∧ t.txLen = 0#16 ∧ t.txNad = 0#8 ∧ t.txFrame = 0#10 ∧
      t.rxState = .awaitFs ∧ t.rxErr = .none ∧ t.rxTotal = 0#12 ∧ t.rxRemaining = 0#12 ∧ t.rxSeq = 1#4 ∧
      t.rspOk = false ∧ t.rspData = 0#8 ∧
      (∀ i, Memory.read t.txbuf i = none) ∧ (∀ i, Memory.read t.rxbuf i = none) ∧
      status0 t = 0x00000100#32 ∧ status1 t = 0#32 ∧ status2 t = 0#32 ∧
      t.linkIn = s.linkIn ∧ t.linkOut = s.linkOut ∧ t.inputs = rest

/-- R37, R38, R39: every field of the three status words, with the numbers of R21, R27 and R200 for the states and error codes
they show, and their reset values. -/
def Obligations.StatusWordsShowRegisters : Prop :=
  (∀ s : State,
    (status0 s).extractLsb' 0 1 = txStateCode s.txState ∧
    (status0 s).extractLsb' 1 1 = BitVec.ofBool s.txDone ∧
    (status0 s).extractLsb' 2 2 = errCode s.txErr ∧
    (status0 s).extractLsb' 4 2 = rxStateCode s.rxState ∧
    (status0 s).extractLsb' 6 2 = errCode s.rxErr ∧
    (status0 s).extractLsb' 8 4 = s.rxSeq ∧
    (status0 s).extractLsb' 12 12 = s.rxTotal ∧
    (status0 s).extractLsb' 24 8 = 0#8 ∧
    (status1 s).extractLsb' 0 12 = s.rxRemaining ∧
    (status1 s).extractLsb' 12 10 = s.txFrame ∧
    (status1 s).extractLsb' 22 10 = 0#10 ∧
    (status2 s).extractLsb' 0 16 = s.txLen ∧
    (status2 s).extractLsb' 16 8 = s.txNad ∧
    (status2 s).extractLsb' 24 8 = 0#8) ∧
  (txStateCode .idle = 0#1 ∧ txStateCode .sending = 1#1) ∧
  (rxStateCode .awaitFs = 0#2 ∧ rxStateCode .awaitCf = 1#2 ∧ rxStateCode .complete = 2#2 ∧ rxStateCode .failed = 3#2) ∧
  (errCode .none = 0#2 ∧ errCode .payloadTooLarge = 1#2 ∧ errCode .framing = 2#2 ∧ errCode .sequence = 3#2) ∧
  status0 State.reset = 0x00000100#32 ∧ status1 State.reset = 0#32 ∧ status2 State.reset = 0#32

/-- The invariant holds at reset. -/
def Obligations.ResetMeetsInvariant : Prop := Inv State.reset

/-- The headline invariant: every step from a state that meets the invariants of 10_state.md section 7 (and the ranges and
buffer facts beside them in Safety.lean) gives a state that meets them. -/
def Obligations.StepKeepsInvariant : Prop := ∀ s t : State, Inv s → step s = .next t → Inv t

/-- From a state that meets the invariant a step answers a next state or stops at `UnwrittenRead`: the model's two other
faults (log entry 6) and its refusals are out of reach. -/
def Obligations.OnlyUnwrittenReadStopsARun : Prop := ∀ s : State, Inv s → safeOutcome (step s)

/-- No run from a state that meets the invariant ends in one of the model's two own faults (log entry 6) or in a refusal; every
state that differs from reset in what the environment presents alone meets it; and a step stops at `UnwrittenRead` exactly
where 70_reset_and_hazards.md section 2 names the stop: an RXB_RD of an unwritten cell, or a Framer step one of whose cells is
unwritten. -/
def Obligations.RunsStopOnlyAtUnwrittenReads : Prop :=
  (∀ (n : Nat) (s : State), Inv s →
    run n s ≠ .fault .noSuchFrame ∧ run n s ≠ .fault .noWritePointer ∧ ∀ r, run n s ≠ .refused r) ∧
  (∀ (ins : List Input) (offers accepted : List PortFrame),
    Inv { State.reset with inputs := ins, linkIn := offers, linkOut := accepted }) ∧
  (∀ s : State, Inv s →
    (step s = .fault .unwrittenRead ↔
      (∃ idx rest, s.inputs = .command (rxbRdWord idx) :: rest ∧ Memory.read s.rxbuf idx.toNat = none) ∨
      (∃ rest i, s.inputs = .linkReady :: rest ∧ s.txState = .sending ∧ sliceStart s.txFrame.toNat ≤ i ∧
        i < sliceStart s.txFrame.toNat + sliceLen s.txLen.toNat s.txFrame.toNat ∧ Memory.read s.txbuf i = none)))

/-- R211: `FAILED` is left only by an accepted RX_ACK, to `AWAIT_FS` with no error, or by reset; `TX_ERR = PAYLOAD_TOO_LARGE`
only by an accepted TX_START, which writes it afresh, or by reset; and each of these does leave it so. -/
def Obligations.ErrorsAreLeftOnlyAsStated : Prop :=
  (∀ s t : State, s.rxState = .failed → step s = .next t → t.rxState ≠ .failed →
    ∃ e rest, s.inputs = e :: rest ∧
      (isReset e = true ∨ (e = .command rxAckWord ∧ t.rspOk = true ∧ t.rxState = .awaitFs ∧ t.rxErr = .none))) ∧
  (∀ s t : State, s.txErr = .payloadTooLarge → step s = .next t → t.txErr ≠ .payloadTooLarge →
    ∃ e rest, s.inputs = e :: rest ∧
      (isReset e = true ∨ ∃ w, e = .command w ∧ opOf w = 2 ∧ ¬ rejectedWord w s ∧ t.rspOk = true ∧ t.txErr = .none)) ∧
  (∀ (s : State) (rest : List Input), s.rxState = .failed → s.inputs = .command rxAckWord :: rest →
    ∃ t, step s = .next t ∧ t.rspOk = true ∧ t.rxState = .awaitFs ∧ t.rxErr = .none) ∧
  (∀ (s : State) (w : Word32) (rest : List Input), s.inputs = .command w :: rest → opOf w = 2 → ¬ rejectedWord w s →
    ∃ t, step s = .next t ∧ t.rspOk = true ∧
      t.txErr = if 4095 < w.toNat / 4096 % 65536 then .payloadTooLarge else .none) ∧
  (∀ s t : State, (∃ e rest, s.inputs = e :: rest ∧ isReset e = true) → step s = .next t →
    t.rxState = .awaitFs ∧ t.rxErr = .none ∧ t.txErr = .none)

/-- The two paths are independent: a step of the Link's offer changes nothing of the transmit side, a step of the Framer and
the commands TXB_WR and TX_START nothing of the receive side ("`TX_*` and `RX_*` are disjoint", 60_exceptions.md section 2). -/
def Obligations.TransmitAndReceiveAreIndependent : Prop :=
  ∀ (s t : State) (e : Input) (rest : List Input), s.inputs = e :: rest → step s = .next t →
    (e = .linkOffer → sameTx s t ∧ sameResponse s t ∧ t.linkOut = s.linkOut) ∧
    (e = .linkReady → sameRx s t ∧ sameResponse s t ∧ t.linkIn = s.linkIn) ∧
    (∀ w, e = .command w → (opOf w = 1 ∨ opOf w = 2) → sameRx s t ∧ t.linkIn = s.linkIn ∧ t.linkOut = s.linkOut) ∧
    (∀ w, e = .command w → (opOf w = 3 ∨ opOf w = 4) → sameTx s t ∧ t.linkIn = s.linkIn ∧ t.linkOut = s.linkOut)

/-- R238: with no frame offered a read in progress waits as it is, however long; with no acceptance by the Link a message
being sent does; RX_ACK and TX_START do not end these waits, they are rejected; only reset does. -/
def Obligations.WaitsHaveNoTimeout : Prop :=
  (∀ (n : Nat) (s t : State), (s.rxState = .awaitFs ∨ s.rxState = .awaitCf) →
    (∀ e ∈ s.inputs.take n, isReset e = false ∧ e ≠ .linkOffer) → run n s = .next t → sameRx s t) ∧
  (∀ (n : Nat) (s t : State), s.txState = .sending →
    (∀ e ∈ s.inputs.take n, isReset e = false ∧ e ≠ .linkReady) → run n s = .next t → sameTx s t) ∧
  (∀ s : State, (s.rxState = .awaitFs ∨ s.rxState = .awaitCf) →
    exec .rxAck s = .next { s with rspOk := false, rspData := 0#8 }) ∧
  (∀ (s : State) (len : BitVec 16) (nad : Byte), s.txState = .sending →
    exec (.txStart len nad) s = .next { s with rspOk := false, rspData := 0#8 })

/-- A received message can be read byte by byte: in `COMPLETE`, RXB_RD of every index below `RX_TOTAL` completes, and the bytes
together are the message (10_state.md section 4, 42_reassembler.md section 3). -/
def Obligations.CompleteMessageIsReadable : Prop :=
  ∀ s : State, Inv s → s.rxState = .complete →
    ∃ m, message s = some m ∧ m.length = s.rxTotal.toNat ∧
      ∀ idx : BitVec 12, idx.toNat < m.length →
        ∃ t, exec (.rxbRd idx) s = .next t ∧ t.rspOk = true ∧ m[idx.toNat]? = some t.rspData

/-! ## The output ports -/

/-- What the output ports show (10_state.md section 5): the response registers, the two handshake outputs by the states, the
status words, and on `ltx_frame`, in `SENDING`, the frame of index `TX_FRAME` packed. Only the cells this frame carries need be
written. -/
def Obligations.OutputPortsShowState : Prop :=
  (∀ s : State, (outPorts s).rspOk = s.rspOk ∧ (outPorts s).rspData = s.rspData ∧
    ((outPorts s).ltxValid = true ↔ s.txState = .sending) ∧
    ((outPorts s).lrxReady = true ↔ s.rxState = .awaitFs ∨ s.rxState = .awaitCf) ∧
    (outPorts s).status0 = status0 s ∧ (outPorts s).status1 = status1 s ∧ (outPorts s).status2 = status2 s) ∧
  (∀ (s : State) (m : List Byte) (k : Nat), s.txState = .sending → m.length ≤ 4095 → s.txLen.toNat = m.length →
    s.txFrame.toNat = k → k < nframes m.length →
    (∀ i, sliceStart k ≤ i → i < sliceStart k + sliceLen m.length k → Memory.read s.txbuf i = m[i]?) →
    (outPorts s).ltxFrame = some (packFrame (frameOf s.txNad m.length k (sliceOf m k))))

/-- The frame on `ltx_frame` is the very frame the next step with `ltx_ready` hands the Link, and no step hands it another
("frame `k` is offered until accepted", 92_eei_decisions.md D34). -/
def Obligations.OfferedFrameIsTheOneSent : Prop :=
  (∀ (s : State) (rest : List Input) (p : PortFrame), s.inputs = .linkReady :: rest → (outPorts s).ltxFrame = some p →
    ∃ t, step s = .next t ∧ t.linkOut = s.linkOut ++ [p]) ∧
  (∀ s t : State, step s = .next t → t.linkOut ≠ s.linkOut →
    ∃ rest p, s.inputs = .linkReady :: rest ∧ (outPorts s).ltxValid = true ∧ (outPorts s).ltxFrame = some p ∧
      t.linkOut = s.linkOut ++ [p])

/-- While the Link does not accept, the offered frame stays as it is, whatever commands and received frames come, until a reset
("the offered frame `ltx_frame` stays `FrameK(TX_NAD, TXBUF, TX_LEN, TX_FRAME)`, unchanged", 41_framer.md section 2). -/
def Obligations.OfferedFrameHoldsUntilAccepted : Prop :=
  ∀ (n : Nat) (s t : State), s.txState = .sending →
    (∀ e ∈ s.inputs.take n, isReset e = false ∧ e ≠ .linkReady) → run n s = .next t →
    (outPorts t).ltxValid = true ∧ (outPorts t).ltxFrame = (outPorts s).ltxFrame ∧ t.linkOut = s.linkOut
end

