-- ==== Sys2Proof/Laws/Decode.lean ====
section
/-! SUPPORT. The words and fields of the encodings as numbers, so that a fact about them is linear arithmetic. -/

namespace Sys2Proof

/-- A concatenation as a number. -/
theorem toNat_append_eq {m n : Nat} (a : BitVec m) (b : BitVec n) : (a ++ b).toNat = a.toNat * 2 ^ n + b.toNat := by
  rw [BitVec.toNat_append, Nat.shiftLeft_eq, Nat.mul_comm, Nat.two_pow_add_eq_or_of_lt b.isLt]

/-- A field as a number. -/
theorem toNat_extract {m : Nat} (x : BitVec m) (lo n : Nat) : (x.extractLsb' lo n).toNat = x.toNat / 2 ^ lo % 2 ^ n := by
  rw [BitVec.extractLsb'_toNat, Nat.shiftRight_eq_div_pow]

/-- A packed frame as a number (R53). -/
theorem packFrame_toNat (f : Frame) :
    (packFrame f).toNat = f.nad.toNat + 2 ^ 8 * f.pci.toNat + 2 ^ 16 * f.data.b2.toNat + 2 ^ 24 * f.data.b3.toNat +
      2 ^ 32 * f.data.b4.toNat + 2 ^ 40 * f.data.b5.toNat + 2 ^ 48 * f.data.b6.toNat + 2 ^ 56 * f.data.b7.toNat := by
  show (f.data.b7 ++ f.data.b6 ++ f.data.b5 ++ f.data.b4 ++ f.data.b3 ++ f.data.b2 ++ f.pci ++ f.nad).toNat = _
  simp only [toNat_append_eq]
  omega

/-- A byte of a port value as a number. -/
theorem portByte_toNat (p : PortFrame) (k : Nat) : (portByte p k).toNat = p.toNat / 2 ^ (8 * k) % 2 ^ 8 :=
  toNat_extract p (8 * k) 8

/-- The frame taken from a port is the frame put on it (R53). -/
@[simp] theorem unpackFrame_packFrame (f : Frame) : unpackFrame (packFrame f) = f := by
  obtain ⟨nad, pci, ⟨b2, b3, b4, b5, b6, b7⟩⟩ := f
  simp only [unpackFrame, Frame.mk.injEq, DataArea.mk.injEq]
  refine ⟨?_, ?_, ?_, ?_, ?_, ?_, ?_, ?_⟩ <;>
  · apply BitVec.eq_of_toNat_eq
    simp only [portByte_toNat, packFrame_toNat]
    omega

/-- A PCI byte as a number (R71). -/
theorem pciOf_toNat (type lo : BitVec 4) : (pciOf type lo).toNat = 16 * type.toNat + lo.toNat := by
  show (type ++ lo).toNat = _
  rw [toNat_append_eq]
  omega

/-- The type of a PCI byte made of a type and a low nibble (R71). -/
@[simp] theorem pciType_pciOf (type lo : BitVec 4) : pciType (pciOf type lo) = type := by
  apply BitVec.eq_of_toNat_eq
  rw [pciType, toNat_extract, pciOf_toNat]
  omega

/-- The low nibble of a PCI byte made of a type and a low nibble (R71). -/
@[simp] theorem pciLow_pciOf (type lo : BitVec 4) : pciLow (pciOf type lo) = lo := by
  apply BitVec.eq_of_toNat_eq
  rw [pciLow, toNat_extract, pciOf_toNat]
  omega

/-- A PCI byte is made of its type and its low nibble (R71). -/
@[simp] theorem pciOf_type_low (pci : Byte) : pciOf (pciType pci) (pciLow pci) = pci := by
  apply BitVec.eq_of_toNat_eq
  rw [pciOf_toNat, pciType, pciLow, toNat_extract, toNat_extract]
  omega

theorem opField_toNat (w : Word32) : (opField w).toNat = w.toNat % 16 := by
  rw [opField, toNat_extract]
  omega

theorem byteField_toNat (w : Word32) : (byteField w).toNat = w.toNat / 16 % 256 := toNat_extract w 4 8

theorem indexField_toNat (w : Word32) : (indexField w).toNat = w.toNat / 4096 % 4096 := toNat_extract w 12 12

theorem lengthField_toNat (w : Word32) : (lengthField w).toNat = w.toNat / 4096 % 65536 := toNat_extract w 12 16

theorem restField_toNat (w : Word32) : (restField w).toNat = w.toNat / 16 % 2 ^ 28 := toNat_extract w 4 28

/-- The word of `TXB_WR` as a number (R81). -/
theorem txbWrWord_toNat (idx : BitVec 12) (data : Byte) :
    (0#8 ++ idx ++ data ++ 1#4 : Word32).toNat = idx.toNat * 4096 + data.toNat * 16 + 1 := by
  show (0#8 ++ idx ++ data ++ 1#4).toNat = _
  simp only [toNat_append_eq, BitVec.toNat_ofNat]
  omega

/-- The word of `TX_START` as a number (R81). -/
theorem txStartWord_toNat (len : BitVec 16) (nad : Byte) :
    (0#4 ++ len ++ nad ++ 2#4 : Word32).toNat = len.toNat * 4096 + nad.toNat * 16 + 2 := by
  show (0#4 ++ len ++ nad ++ 2#4).toNat = _
  simp only [toNat_append_eq, BitVec.toNat_ofNat]
  omega

/-- The word of `RXB_RD` as a number (R81). -/
theorem rxbRdWord_toNat (idx : BitVec 12) : (0#8 ++ idx ++ 0#8 ++ 3#4 : Word32).toNat = idx.toNat * 4096 + 3 := by
  show (0#8 ++ idx ++ 0#8 ++ 3#4).toNat = _
  simp only [toNat_append_eq, BitVec.toNat_ofNat]
  omega

/-- A reserved word as a number (R81, R85). -/
theorem reservedWord_toNat (rest : BitVec 28) (op : BitVec 4) : (rest ++ op : Word32).toNat = rest.toNat * 16 + op.toNat := by
  show (rest ++ op).toNat = _
  rw [toNat_append_eq]
  omega

/-- A First frame's length assembled from its two parts (R77). -/
theorem ffDl_toNat (hi : BitVec 4) (lo : Byte) : (hi ++ lo : BitVec 12).toNat = hi.toNat * 256 + lo.toNat := by
  show (hi ++ lo).toNat = _
  rw [toNat_append_eq]
  omega

end Sys2Proof
end

