-- ==== Sys2Proof/Laws/Memory.lean ====
section
/-! SUPPORT. The laws of the buffers: a read after writes, ranges, and the canonical form, which every operation keeps. -/

namespace Sys2Proof.Machine

@[simp] theorem Memory.read_nil (i : Nat) : Memory.read [] i = none := rfl

/-- A read after a write gives the value written at that cell and what it gave before at every other. -/
theorem Memory.read_write (m : Memory) (i j : Nat) (v : Byte) :
    Memory.read (Memory.write m i v) j = if j = i then some v else Memory.read m j := by
  induction m with
  | nil => simp [Memory.write, Memory.read, eq_comm]
  | cons c m ih =>
    obtain ⟨a, b⟩ := c
    simp only [Memory.write]
    by_cases h1 : a < i
    · simp only [h1, if_true, Memory.read, ih]
      split_ifs <;> first | rfl | omega
    · by_cases h2 : a = i
      · subst h2
        simp only [h1, if_false, if_true, Memory.read]
        split_ifs <;> first | rfl | omega
      · simp only [h1, h2, if_false, Memory.read]
        split_ifs <;> first | rfl | omega

@[simp] theorem Memory.read_write_same (m : Memory) (i : Nat) (v : Byte) : Memory.read (Memory.write m i v) i = some v := by
  simp [Memory.read_write]

theorem Memory.read_write_other (m : Memory) {i j : Nat} (v : Byte) (h : j ≠ i) :
    Memory.read (Memory.write m i v) j = Memory.read m j := by
  simp [Memory.read_write, h]

@[simp] theorem Memory.writeList_nil (m : Memory) (i : Nat) : Memory.writeList m i [] = m := rfl

/-- A read after writes of consecutive cells gives the value written inside them and what it gave before outside them. -/
theorem Memory.read_writeList (m : Memory) (i j : Nat) (vs : List Byte) :
    Memory.read (Memory.writeList m i vs) j =
      if i ≤ j ∧ j < i + vs.length then vs[j - i]? else Memory.read m j := by
  induction vs generalizing m i with
  | nil =>
    have h : ¬(i ≤ j ∧ j < i + ([] : List Byte).length) := by simp
    rw [if_neg h]
    rfl
  | cons v vs ih =>
    simp only [Memory.writeList, ih, List.length_cons]
    by_cases hji : j = i
    · subst hji
      have h : ¬(j + 1 ≤ j ∧ j < j + 1 + vs.length) := by omega
      rw [if_neg h, if_pos (by omega)]
      simp
    · by_cases hin : i + 1 ≤ j ∧ j < i + 1 + vs.length
      · rw [if_pos hin, if_pos (by omega)]
        obtain ⟨k, rfl⟩ : ∃ k, j = i + 1 + k := ⟨j - (i + 1), by omega⟩
        have h1 : i + 1 + k - (i + 1) = k := by omega
        have h2 : i + 1 + k - i = k + 1 := by omega
        rw [h1, h2, List.getElem?_cons_succ]
      · rw [if_neg hin, if_neg (by omega), Memory.read_write_other _ _ hji]

/-- What a range of cells reads as: some bytes exactly when every cell of it is written, and then those bytes in order. -/
theorem Memory.readRange_eq_some_iff (m : Memory) (i n : Nat) (d : List Byte) :
    Memory.readRange m i n = some d ↔ d.length = n ∧ ∀ j < n, Memory.read m (i + j) = d[j]? := by
  induction n generalizing i d with
  | zero =>
    simp only [Memory.readRange, Option.some.injEq, Nat.not_lt_zero, false_imp_iff, implies_true, and_true]
    exact ⟨fun h => h ▸ rfl, fun h => (List.eq_nil_of_length_eq_zero h).symm⟩
  | succ n ih =>
    constructor
    · intro h
      simp only [Memory.readRange] at h
      split at h
      · rename_i b bs hb hbs
        obtain rfl := Option.some.inj h
        obtain ⟨hl, hr⟩ := (ih (i + 1) bs).mp hbs
        refine ⟨by simp [hl], fun j hj => ?_⟩
        cases j with
        | zero => simpa using hb
        | succ j =>
          rw [List.getElem?_cons_succ, ← hr j (by omega)]
          congr 1
          omega
      · cases h
    · rintro ⟨hl, hr⟩
      cases d with
      | nil => simp at hl
      | cons b bs =>
        have hb : Memory.read m i = some b := by simpa using hr 0 (by omega)
        have hbs : Memory.readRange m (i + 1) n = some bs := by
          refine (ih (i + 1) bs).mpr ⟨by simpa using hl, fun j hj => ?_⟩
          have := hr (j + 1) (by omega)
          rw [List.getElem?_cons_succ] at this
          rw [← this]
          congr 1
          omega
        simp [Memory.readRange, hb, hbs]

/-- A range of cells reads as nothing exactly when a cell of it is unwritten. -/
theorem Memory.readRange_eq_none_iff (m : Memory) (i n : Nat) :
    Memory.readRange m i n = none ↔ ∃ j < n, Memory.read m (i + j) = none := by
  induction n generalizing i with
  | zero => simp [Memory.readRange]
  | succ n ih =>
    constructor
    · intro h
      cases hb : Memory.read m i with
      | none => exact ⟨0, by omega, by simpa using hb⟩
      | some b =>
        cases hbs : Memory.readRange m (i + 1) n with
        | none =>
          obtain ⟨j, hj, hr⟩ := (ih (i + 1)).mp hbs
          exact ⟨j + 1, by omega, by rw [← hr]; congr 1; omega⟩
        | some bs => simp [Memory.readRange, hb, hbs] at h
    · rintro ⟨j, hj, hr⟩
      cases j with
      | zero => simp only [Memory.readRange, show Memory.read m i = none from by simpa using hr]
      | succ j =>
        have hbs : Memory.readRange m (i + 1) n = none :=
          (ih (i + 1)).mpr ⟨j, by omega, by rw [← hr]; congr 1; omega⟩
        cases hb : Memory.read m i <;> simp [Memory.readRange, hb, hbs]

/-! ## The canonical form -/

theorem Memory.risingFrom_mono {m : Memory} {lo hi : Nat} (h : Memory.risingFrom hi m = true) (hle : lo ≤ hi) :
    Memory.risingFrom lo m = true := by
  cases m with
  | nil => rfl
  | cons c m =>
    obtain ⟨a, b⟩ := c
    simp only [Memory.risingFrom, Bool.and_eq_true, decide_eq_true_eq] at h ⊢
    exact ⟨⟨by omega, h.1.2⟩, h.2⟩

theorem Memory.risingFrom_write {m : Memory} {lo i : Nat} (v : Byte) (h : Memory.risingFrom lo m = true) (hlo : lo ≤ i)
    (hi : i < 4096) : Memory.risingFrom lo (Memory.write m i v) = true := by
  induction m generalizing lo with
  | nil => simp [Memory.write, Memory.risingFrom, hlo, Config.bufSize, hi]
  | cons c m ih =>
    obtain ⟨a, b⟩ := c
    simp only [Memory.risingFrom, Bool.and_eq_true, decide_eq_true_eq, Config.bufSize] at h
    simp only [Memory.write]
    split_ifs with h1 h2
    · simp only [Memory.risingFrom, Bool.and_eq_true, decide_eq_true_eq, Config.bufSize]
      exact ⟨h.1, ih h.2 (by omega)⟩
    · simp only [Memory.risingFrom, Bool.and_eq_true, decide_eq_true_eq, Config.bufSize]
      exact ⟨h.1, h.2⟩
    · simp only [Memory.risingFrom, Bool.and_eq_true, decide_eq_true_eq, Config.bufSize]
      exact ⟨⟨hlo, decide_eq_true hi⟩, ⟨by omega, h.1.2⟩, h.2⟩

@[simp] theorem Memory.wf_nil : Memory.wf [] = true := rfl

/-- A write of a cell of the buffer keeps the canonical form. -/
theorem Memory.wf_write {m : Memory} {i : Nat} (v : Byte) (h : Memory.wf m = true) (hi : i < 4096) :
    Memory.wf (Memory.write m i v) = true :=
  Memory.risingFrom_write v h (Nat.zero_le _) hi

/-- Writes of consecutive cells of the buffer keep the canonical form. -/
theorem Memory.wf_writeList {m : Memory} {i : Nat} {vs : List Byte} (h : Memory.wf m = true) (hi : i + vs.length ≤ 4096) :
    Memory.wf (Memory.writeList m i vs) = true := by
  induction vs generalizing m i with
  | nil => exact h
  | cons v vs ih =>
    simp only [List.length_cons] at hi
    exact ih (Memory.wf_write v h (by omega)) (by omega)

/-- Both buffers are in canonical form at reset. -/
theorem reset_buffers_wf : Memory.wf State.reset.txbuf = true ∧ Memory.wf State.reset.rxbuf = true := ⟨rfl, rfl⟩

/-- Nothing is written below the first index allowed. -/
theorem Memory.read_below {m : Memory} {lo i : Nat} (h : Memory.risingFrom lo m = true) (hi : i < lo) :
    Memory.read m i = none := by
  induction m generalizing lo with
  | nil => rfl
  | cons c m ih =>
    obtain ⟨a, b⟩ := c
    simp only [Memory.risingFrom, Bool.and_eq_true, decide_eq_true_eq] at h
    have ha : a ≠ i := by omega
    simp only [Memory.read, ha, if_false]
    exact ih h.2 (by omega)

theorem Memory.eq_of_read_of_rising {m n : Memory} {lo : Nat} (hm : Memory.risingFrom lo m = true)
    (hn : Memory.risingFrom lo n = true) (h : ∀ i, Memory.read m i = Memory.read n i) : m = n := by
  induction m generalizing n lo with
  | nil =>
    cases n with
    | nil => rfl
    | cons d n => simpa [Memory.read] using h d.1
  | cons c m ih =>
    obtain ⟨a, b⟩ := c
    cases n with
    | nil => simpa [Memory.read] using h a
    | cons d n =>
      obtain ⟨a', b'⟩ := d
      simp only [Memory.risingFrom, Bool.and_eq_true, decide_eq_true_eq] at hm hn
      have hlt : ¬ a < a' := by
        intro hlt
        have h1 := h a
        have hne : a' ≠ a := by omega
        simp [Memory.read, hne, Memory.read_below hn.2 (show a < a' + 1 by omega)] at h1
      have hgt : ¬ a' < a := by
        intro hgt
        have h1 := h a'
        have hne : a ≠ a' := by omega
        simp [Memory.read, hne, Memory.read_below hm.2 (show a' < a + 1 by omega)] at h1
      have haa : a = a' := by omega
      subst haa
      have hb : b = b' := by simpa [Memory.read] using h a
      subst hb
      congr 1
      refine ih hm.2 hn.2 (fun i => ?_)
      by_cases hi : i < a + 1
      · rw [Memory.read_below hm.2 hi, Memory.read_below hn.2 hi]
      · have hne : a ≠ i := by omega
        simpa [Memory.read, hne] using h i

/-- In the canonical form, buffers that read alike are equal data. -/
theorem Memory.eq_of_read {m n : Memory} (hm : Memory.wf m = true) (hn : Memory.wf n = true)
    (h : ∀ i, Memory.read m i = Memory.read n i) : m = n :=
  Memory.eq_of_read_of_rising hm hn h

end Sys2Proof.Machine
end

