-- ==== Sys2Proof/Laws/State.lean ====
section
/-! SUPPORT. The field lemmas of every named update of the state: what each field holds after it, true by computation. -/

namespace Sys2Proof.Machine

/-! ## respond -/

@[simp] theorem respond_txState (ok : Bool) (data : Byte) (s : State) : (respond ok data s).txState = s.txState := rfl
@[simp] theorem respond_txErr (ok : Bool) (data : Byte) (s : State) : (respond ok data s).txErr = s.txErr := rfl
@[simp] theorem respond_txDone (ok : Bool) (data : Byte) (s : State) : (respond ok data s).txDone = s.txDone := rfl
@[simp] theorem respond_txLen (ok : Bool) (data : Byte) (s : State) : (respond ok data s).txLen = s.txLen := rfl
@[simp] theorem respond_txNad (ok : Bool) (data : Byte) (s : State) : (respond ok data s).txNad = s.txNad := rfl
@[simp] theorem respond_txFrame (ok : Bool) (data : Byte) (s : State) : (respond ok data s).txFrame = s.txFrame := rfl
@[simp] theorem respond_rxState (ok : Bool) (data : Byte) (s : State) : (respond ok data s).rxState = s.rxState := rfl
@[simp] theorem respond_rxErr (ok : Bool) (data : Byte) (s : State) : (respond ok data s).rxErr = s.rxErr := rfl
@[simp] theorem respond_rxTotal (ok : Bool) (data : Byte) (s : State) : (respond ok data s).rxTotal = s.rxTotal := rfl
@[simp] theorem respond_rxRemaining (ok : Bool) (data : Byte) (s : State) : (respond ok data s).rxRemaining = s.rxRemaining := rfl
@[simp] theorem respond_rxSeq (ok : Bool) (data : Byte) (s : State) : (respond ok data s).rxSeq = s.rxSeq := rfl
@[simp] theorem respond_rspOk (ok : Bool) (data : Byte) (s : State) : (respond ok data s).rspOk = ok := rfl
@[simp] theorem respond_rspData (ok : Bool) (data : Byte) (s : State) : (respond ok data s).rspData = data := rfl
@[simp] theorem respond_txbuf (ok : Bool) (data : Byte) (s : State) : (respond ok data s).txbuf = s.txbuf := rfl
@[simp] theorem respond_rxbuf (ok : Bool) (data : Byte) (s : State) : (respond ok data s).rxbuf = s.rxbuf := rfl
@[simp] theorem respond_inputs (ok : Bool) (data : Byte) (s : State) : (respond ok data s).inputs = s.inputs := rfl
@[simp] theorem respond_linkIn (ok : Bool) (data : Byte) (s : State) : (respond ok data s).linkIn = s.linkIn := rfl
@[simp] theorem respond_linkOut (ok : Bool) (data : Byte) (s : State) : (respond ok data s).linkOut = s.linkOut := rfl

/-! ## accept -/

@[simp] theorem accept_txState (data : Byte) (s : State) : (accept data s).txState = s.txState := rfl
@[simp] theorem accept_txErr (data : Byte) (s : State) : (accept data s).txErr = s.txErr := rfl
@[simp] theorem accept_txDone (data : Byte) (s : State) : (accept data s).txDone = s.txDone := rfl
@[simp] theorem accept_txLen (data : Byte) (s : State) : (accept data s).txLen = s.txLen := rfl
@[simp] theorem accept_txNad (data : Byte) (s : State) : (accept data s).txNad = s.txNad := rfl
@[simp] theorem accept_txFrame (data : Byte) (s : State) : (accept data s).txFrame = s.txFrame := rfl
@[simp] theorem accept_rxState (data : Byte) (s : State) : (accept data s).rxState = s.rxState := rfl
@[simp] theorem accept_rxErr (data : Byte) (s : State) : (accept data s).rxErr = s.rxErr := rfl
@[simp] theorem accept_rxTotal (data : Byte) (s : State) : (accept data s).rxTotal = s.rxTotal := rfl
@[simp] theorem accept_rxRemaining (data : Byte) (s : State) : (accept data s).rxRemaining = s.rxRemaining := rfl
@[simp] theorem accept_rxSeq (data : Byte) (s : State) : (accept data s).rxSeq = s.rxSeq := rfl
@[simp] theorem accept_rspOk (data : Byte) (s : State) : (accept data s).rspOk = true := rfl
@[simp] theorem accept_rspData (data : Byte) (s : State) : (accept data s).rspData = data := rfl
@[simp] theorem accept_txbuf (data : Byte) (s : State) : (accept data s).txbuf = s.txbuf := rfl
@[simp] theorem accept_rxbuf (data : Byte) (s : State) : (accept data s).rxbuf = s.rxbuf := rfl
@[simp] theorem accept_inputs (data : Byte) (s : State) : (accept data s).inputs = s.inputs := rfl
@[simp] theorem accept_linkIn (data : Byte) (s : State) : (accept data s).linkIn = s.linkIn := rfl
@[simp] theorem accept_linkOut (data : Byte) (s : State) : (accept data s).linkOut = s.linkOut := rfl

/-! ## reject -/

@[simp] theorem reject_txState (s : State) : (reject s).txState = s.txState := rfl
@[simp] theorem reject_txErr (s : State) : (reject s).txErr = s.txErr := rfl
@[simp] theorem reject_txDone (s : State) : (reject s).txDone = s.txDone := rfl
@[simp] theorem reject_txLen (s : State) : (reject s).txLen = s.txLen := rfl
@[simp] theorem reject_txNad (s : State) : (reject s).txNad = s.txNad := rfl
@[simp] theorem reject_txFrame (s : State) : (reject s).txFrame = s.txFrame := rfl
@[simp] theorem reject_rxState (s : State) : (reject s).rxState = s.rxState := rfl
@[simp] theorem reject_rxErr (s : State) : (reject s).rxErr = s.rxErr := rfl
@[simp] theorem reject_rxTotal (s : State) : (reject s).rxTotal = s.rxTotal := rfl
@[simp] theorem reject_rxRemaining (s : State) : (reject s).rxRemaining = s.rxRemaining := rfl
@[simp] theorem reject_rxSeq (s : State) : (reject s).rxSeq = s.rxSeq := rfl
@[simp] theorem reject_rspOk (s : State) : (reject s).rspOk = false := rfl
@[simp] theorem reject_rspData (s : State) : (reject s).rspData = 0#8 := rfl
@[simp] theorem reject_txbuf (s : State) : (reject s).txbuf = s.txbuf := rfl
@[simp] theorem reject_rxbuf (s : State) : (reject s).rxbuf = s.rxbuf := rfl
@[simp] theorem reject_inputs (s : State) : (reject s).inputs = s.inputs := rfl
@[simp] theorem reject_linkIn (s : State) : (reject s).linkIn = s.linkIn := rfl
@[simp] theorem reject_linkOut (s : State) : (reject s).linkOut = s.linkOut := rfl

/-! ## storeTx -/

@[simp] theorem storeTx_txState (i : Nat) (v : Byte) (s : State) : (storeTx i v s).txState = s.txState := rfl
@[simp] theorem storeTx_txErr (i : Nat) (v : Byte) (s : State) : (storeTx i v s).txErr = s.txErr := rfl
@[simp] theorem storeTx_txDone (i : Nat) (v : Byte) (s : State) : (storeTx i v s).txDone = s.txDone := rfl
@[simp] theorem storeTx_txLen (i : Nat) (v : Byte) (s : State) : (storeTx i v s).txLen = s.txLen := rfl
@[simp] theorem storeTx_txNad (i : Nat) (v : Byte) (s : State) : (storeTx i v s).txNad = s.txNad := rfl
@[simp] theorem storeTx_txFrame (i : Nat) (v : Byte) (s : State) : (storeTx i v s).txFrame = s.txFrame := rfl
@[simp] theorem storeTx_rxState (i : Nat) (v : Byte) (s : State) : (storeTx i v s).rxState = s.rxState := rfl
@[simp] theorem storeTx_rxErr (i : Nat) (v : Byte) (s : State) : (storeTx i v s).rxErr = s.rxErr := rfl
@[simp] theorem storeTx_rxTotal (i : Nat) (v : Byte) (s : State) : (storeTx i v s).rxTotal = s.rxTotal := rfl
@[simp] theorem storeTx_rxRemaining (i : Nat) (v : Byte) (s : State) : (storeTx i v s).rxRemaining = s.rxRemaining := rfl
@[simp] theorem storeTx_rxSeq (i : Nat) (v : Byte) (s : State) : (storeTx i v s).rxSeq = s.rxSeq := rfl
@[simp] theorem storeTx_rspOk (i : Nat) (v : Byte) (s : State) : (storeTx i v s).rspOk = s.rspOk := rfl
@[simp] theorem storeTx_rspData (i : Nat) (v : Byte) (s : State) : (storeTx i v s).rspData = s.rspData := rfl
@[simp] theorem storeTx_txbuf (i : Nat) (v : Byte) (s : State) : (storeTx i v s).txbuf = Memory.write s.txbuf i v := rfl
@[simp] theorem storeTx_rxbuf (i : Nat) (v : Byte) (s : State) : (storeTx i v s).rxbuf = s.rxbuf := rfl
@[simp] theorem storeTx_inputs (i : Nat) (v : Byte) (s : State) : (storeTx i v s).inputs = s.inputs := rfl
@[simp] theorem storeTx_linkIn (i : Nat) (v : Byte) (s : State) : (storeTx i v s).linkIn = s.linkIn := rfl
@[simp] theorem storeTx_linkOut (i : Nat) (v : Byte) (s : State) : (storeTx i v s).linkOut = s.linkOut := rfl

/-! ## storeRx -/

@[simp] theorem storeRx_txState (i : Nat) (vs : List Byte) (s : State) : (storeRx i vs s).txState = s.txState := rfl
@[simp] theorem storeRx_txErr (i : Nat) (vs : List Byte) (s : State) : (storeRx i vs s).txErr = s.txErr := rfl
@[simp] theorem storeRx_txDone (i : Nat) (vs : List Byte) (s : State) : (storeRx i vs s).txDone = s.txDone := rfl
@[simp] theorem storeRx_txLen (i : Nat) (vs : List Byte) (s : State) : (storeRx i vs s).txLen = s.txLen := rfl
@[simp] theorem storeRx_txNad (i : Nat) (vs : List Byte) (s : State) : (storeRx i vs s).txNad = s.txNad := rfl
@[simp] theorem storeRx_txFrame (i : Nat) (vs : List Byte) (s : State) : (storeRx i vs s).txFrame = s.txFrame := rfl
@[simp] theorem storeRx_rxState (i : Nat) (vs : List Byte) (s : State) : (storeRx i vs s).rxState = s.rxState := rfl
@[simp] theorem storeRx_rxErr (i : Nat) (vs : List Byte) (s : State) : (storeRx i vs s).rxErr = s.rxErr := rfl
@[simp] theorem storeRx_rxTotal (i : Nat) (vs : List Byte) (s : State) : (storeRx i vs s).rxTotal = s.rxTotal := rfl
@[simp] theorem storeRx_rxRemaining (i : Nat) (vs : List Byte) (s : State) : (storeRx i vs s).rxRemaining = s.rxRemaining := rfl
@[simp] theorem storeRx_rxSeq (i : Nat) (vs : List Byte) (s : State) : (storeRx i vs s).rxSeq = s.rxSeq := rfl
@[simp] theorem storeRx_rspOk (i : Nat) (vs : List Byte) (s : State) : (storeRx i vs s).rspOk = s.rspOk := rfl
@[simp] theorem storeRx_rspData (i : Nat) (vs : List Byte) (s : State) : (storeRx i vs s).rspData = s.rspData := rfl
@[simp] theorem storeRx_txbuf (i : Nat) (vs : List Byte) (s : State) : (storeRx i vs s).txbuf = s.txbuf := rfl
@[simp] theorem storeRx_rxbuf (i : Nat) (vs : List Byte) (s : State) : (storeRx i vs s).rxbuf = Memory.writeList s.rxbuf i vs := rfl
@[simp] theorem storeRx_inputs (i : Nat) (vs : List Byte) (s : State) : (storeRx i vs s).inputs = s.inputs := rfl
@[simp] theorem storeRx_linkIn (i : Nat) (vs : List Byte) (s : State) : (storeRx i vs s).linkIn = s.linkIn := rfl
@[simp] theorem storeRx_linkOut (i : Nat) (vs : List Byte) (s : State) : (storeRx i vs s).linkOut = s.linkOut := rfl

/-! ## loadTx -/

@[simp] theorem loadTx_txState (len : BitVec 16) (nad : Byte) (s : State) : (loadTx len nad s).txState = s.txState := rfl
@[simp] theorem loadTx_txErr (len : BitVec 16) (nad : Byte) (s : State) : (loadTx len nad s).txErr = s.txErr := rfl
@[simp] theorem loadTx_txDone (len : BitVec 16) (nad : Byte) (s : State) : (loadTx len nad s).txDone = false := rfl
@[simp] theorem loadTx_txLen (len : BitVec 16) (nad : Byte) (s : State) : (loadTx len nad s).txLen = len := rfl
@[simp] theorem loadTx_txNad (len : BitVec 16) (nad : Byte) (s : State) : (loadTx len nad s).txNad = nad := rfl
@[simp] theorem loadTx_txFrame (len : BitVec 16) (nad : Byte) (s : State) : (loadTx len nad s).txFrame = 0#10 := rfl
@[simp] theorem loadTx_rxState (len : BitVec 16) (nad : Byte) (s : State) : (loadTx len nad s).rxState = s.rxState := rfl
@[simp] theorem loadTx_rxErr (len : BitVec 16) (nad : Byte) (s : State) : (loadTx len nad s).rxErr = s.rxErr := rfl
@[simp] theorem loadTx_rxTotal (len : BitVec 16) (nad : Byte) (s : State) : (loadTx len nad s).rxTotal = s.rxTotal := rfl
@[simp] theorem loadTx_rxRemaining (len : BitVec 16) (nad : Byte) (s : State) : (loadTx len nad s).rxRemaining = s.rxRemaining := rfl
@[simp] theorem loadTx_rxSeq (len : BitVec 16) (nad : Byte) (s : State) : (loadTx len nad s).rxSeq = s.rxSeq := rfl
@[simp] theorem loadTx_rspOk (len : BitVec 16) (nad : Byte) (s : State) : (loadTx len nad s).rspOk = s.rspOk := rfl
@[simp] theorem loadTx_rspData (len : BitVec 16) (nad : Byte) (s : State) : (loadTx len nad s).rspData = s.rspData := rfl
@[simp] theorem loadTx_txbuf (len : BitVec 16) (nad : Byte) (s : State) : (loadTx len nad s).txbuf = s.txbuf := rfl
@[simp] theorem loadTx_rxbuf (len : BitVec 16) (nad : Byte) (s : State) : (loadTx len nad s).rxbuf = s.rxbuf := rfl
@[simp] theorem loadTx_inputs (len : BitVec 16) (nad : Byte) (s : State) : (loadTx len nad s).inputs = s.inputs := rfl
@[simp] theorem loadTx_linkIn (len : BitVec 16) (nad : Byte) (s : State) : (loadTx len nad s).linkIn = s.linkIn := rfl
@[simp] theorem loadTx_linkOut (len : BitVec 16) (nad : Byte) (s : State) : (loadTx len nad s).linkOut = s.linkOut := rfl

/-! ## startTx -/

@[simp] theorem startTx_txState (s : State) : (startTx s).txState = .sending := rfl
@[simp] theorem startTx_txErr (s : State) : (startTx s).txErr = .none := rfl
@[simp] theorem startTx_txDone (s : State) : (startTx s).txDone = s.txDone := rfl
@[simp] theorem startTx_txLen (s : State) : (startTx s).txLen = s.txLen := rfl
@[simp] theorem startTx_txNad (s : State) : (startTx s).txNad = s.txNad := rfl
@[simp] theorem startTx_txFrame (s : State) : (startTx s).txFrame = s.txFrame := rfl
@[simp] theorem startTx_rxState (s : State) : (startTx s).rxState = s.rxState := rfl
@[simp] theorem startTx_rxErr (s : State) : (startTx s).rxErr = s.rxErr := rfl
@[simp] theorem startTx_rxTotal (s : State) : (startTx s).rxTotal = s.rxTotal := rfl
@[simp] theorem startTx_rxRemaining (s : State) : (startTx s).rxRemaining = s.rxRemaining := rfl
@[simp] theorem startTx_rxSeq (s : State) : (startTx s).rxSeq = s.rxSeq := rfl
@[simp] theorem startTx_rspOk (s : State) : (startTx s).rspOk = s.rspOk := rfl
@[simp] theorem startTx_rspData (s : State) : (startTx s).rspData = s.rspData := rfl
@[simp] theorem startTx_txbuf (s : State) : (startTx s).txbuf = s.txbuf := rfl
@[simp] theorem startTx_rxbuf (s : State) : (startTx s).rxbuf = s.rxbuf := rfl
@[simp] theorem startTx_inputs (s : State) : (startTx s).inputs = s.inputs := rfl
@[simp] theorem startTx_linkIn (s : State) : (startTx s).linkIn = s.linkIn := rfl
@[simp] theorem startTx_linkOut (s : State) : (startTx s).linkOut = s.linkOut := rfl

/-! ## emit -/

@[simp] theorem emit_txState (p : PortFrame) (s : State) : (emit p s).txState = s.txState := rfl
@[simp] theorem emit_txErr (p : PortFrame) (s : State) : (emit p s).txErr = s.txErr := rfl
@[simp] theorem emit_txDone (p : PortFrame) (s : State) : (emit p s).txDone = s.txDone := rfl
@[simp] theorem emit_txLen (p : PortFrame) (s : State) : (emit p s).txLen = s.txLen := rfl
@[simp] theorem emit_txNad (p : PortFrame) (s : State) : (emit p s).txNad = s.txNad := rfl
@[simp] theorem emit_txFrame (p : PortFrame) (s : State) : (emit p s).txFrame = s.txFrame + 1#10 := rfl
@[simp] theorem emit_rxState (p : PortFrame) (s : State) : (emit p s).rxState = s.rxState := rfl
@[simp] theorem emit_rxErr (p : PortFrame) (s : State) : (emit p s).rxErr = s.rxErr := rfl
@[simp] theorem emit_rxTotal (p : PortFrame) (s : State) : (emit p s).rxTotal = s.rxTotal := rfl
@[simp] theorem emit_rxRemaining (p : PortFrame) (s : State) : (emit p s).rxRemaining = s.rxRemaining := rfl
@[simp] theorem emit_rxSeq (p : PortFrame) (s : State) : (emit p s).rxSeq = s.rxSeq := rfl
@[simp] theorem emit_rspOk (p : PortFrame) (s : State) : (emit p s).rspOk = s.rspOk := rfl
@[simp] theorem emit_rspData (p : PortFrame) (s : State) : (emit p s).rspData = s.rspData := rfl
@[simp] theorem emit_txbuf (p : PortFrame) (s : State) : (emit p s).txbuf = s.txbuf := rfl
@[simp] theorem emit_rxbuf (p : PortFrame) (s : State) : (emit p s).rxbuf = s.rxbuf := rfl
@[simp] theorem emit_inputs (p : PortFrame) (s : State) : (emit p s).inputs = s.inputs := rfl
@[simp] theorem emit_linkIn (p : PortFrame) (s : State) : (emit p s).linkIn = s.linkIn := rfl
@[simp] theorem emit_linkOut (p : PortFrame) (s : State) : (emit p s).linkOut = s.linkOut ++ [p] := rfl

/-! ## finishTx -/

@[simp] theorem finishTx_txState (s : State) : (finishTx s).txState = .idle := rfl
@[simp] theorem finishTx_txErr (s : State) : (finishTx s).txErr = s.txErr := rfl
@[simp] theorem finishTx_txDone (s : State) : (finishTx s).txDone = true := rfl
@[simp] theorem finishTx_txLen (s : State) : (finishTx s).txLen = s.txLen := rfl
@[simp] theorem finishTx_txNad (s : State) : (finishTx s).txNad = s.txNad := rfl
@[simp] theorem finishTx_txFrame (s : State) : (finishTx s).txFrame = s.txFrame := rfl
@[simp] theorem finishTx_rxState (s : State) : (finishTx s).rxState = s.rxState := rfl
@[simp] theorem finishTx_rxErr (s : State) : (finishTx s).rxErr = s.rxErr := rfl
@[simp] theorem finishTx_rxTotal (s : State) : (finishTx s).rxTotal = s.rxTotal := rfl
@[simp] theorem finishTx_rxRemaining (s : State) : (finishTx s).rxRemaining = s.rxRemaining := rfl
@[simp] theorem finishTx_rxSeq (s : State) : (finishTx s).rxSeq = s.rxSeq := rfl
@[simp] theorem finishTx_rspOk (s : State) : (finishTx s).rspOk = s.rspOk := rfl
@[simp] theorem finishTx_rspData (s : State) : (finishTx s).rspData = s.rspData := rfl
@[simp] theorem finishTx_txbuf (s : State) : (finishTx s).txbuf = s.txbuf := rfl
@[simp] theorem finishTx_rxbuf (s : State) : (finishTx s).rxbuf = s.rxbuf := rfl
@[simp] theorem finishTx_inputs (s : State) : (finishTx s).inputs = s.inputs := rfl
@[simp] theorem finishTx_linkIn (s : State) : (finishTx s).linkIn = s.linkIn := rfl
@[simp] theorem finishTx_linkOut (s : State) : (finishTx s).linkOut = s.linkOut := rfl

/-! ## completeSingle -/

@[simp] theorem completeSingle_txState (total : BitVec 12) (s : State) : (completeSingle total s).txState = s.txState := rfl
@[simp] theorem completeSingle_txErr (total : BitVec 12) (s : State) : (completeSingle total s).txErr = s.txErr := rfl
@[simp] theorem completeSingle_txDone (total : BitVec 12) (s : State) : (completeSingle total s).txDone = s.txDone := rfl
@[simp] theorem completeSingle_txLen (total : BitVec 12) (s : State) : (completeSingle total s).txLen = s.txLen := rfl
@[simp] theorem completeSingle_txNad (total : BitVec 12) (s : State) : (completeSingle total s).txNad = s.txNad := rfl
@[simp] theorem completeSingle_txFrame (total : BitVec 12) (s : State) : (completeSingle total s).txFrame = s.txFrame := rfl
@[simp] theorem completeSingle_rxState (total : BitVec 12) (s : State) : (completeSingle total s).rxState = .complete := rfl
@[simp] theorem completeSingle_rxErr (total : BitVec 12) (s : State) : (completeSingle total s).rxErr = s.rxErr := rfl
@[simp] theorem completeSingle_rxTotal (total : BitVec 12) (s : State) : (completeSingle total s).rxTotal = total := rfl
@[simp] theorem completeSingle_rxRemaining (total : BitVec 12) (s : State) : (completeSingle total s).rxRemaining = 0#12 := rfl
@[simp] theorem completeSingle_rxSeq (total : BitVec 12) (s : State) : (completeSingle total s).rxSeq = s.rxSeq := rfl
@[simp] theorem completeSingle_rspOk (total : BitVec 12) (s : State) : (completeSingle total s).rspOk = s.rspOk := rfl
@[simp] theorem completeSingle_rspData (total : BitVec 12) (s : State) : (completeSingle total s).rspData = s.rspData := rfl
@[simp] theorem completeSingle_txbuf (total : BitVec 12) (s : State) : (completeSingle total s).txbuf = s.txbuf := rfl
@[simp] theorem completeSingle_rxbuf (total : BitVec 12) (s : State) : (completeSingle total s).rxbuf = s.rxbuf := rfl
@[simp] theorem completeSingle_inputs (total : BitVec 12) (s : State) : (completeSingle total s).inputs = s.inputs := rfl
@[simp] theorem completeSingle_linkIn (total : BitVec 12) (s : State) : (completeSingle total s).linkIn = s.linkIn := rfl
@[simp] theorem completeSingle_linkOut (total : BitVec 12) (s : State) : (completeSingle total s).linkOut = s.linkOut := rfl

/-! ## openMessage -/

@[simp] theorem openMessage_txState (total : BitVec 12) (s : State) : (openMessage total s).txState = s.txState := rfl
@[simp] theorem openMessage_txErr (total : BitVec 12) (s : State) : (openMessage total s).txErr = s.txErr := rfl
@[simp] theorem openMessage_txDone (total : BitVec 12) (s : State) : (openMessage total s).txDone = s.txDone := rfl
@[simp] theorem openMessage_txLen (total : BitVec 12) (s : State) : (openMessage total s).txLen = s.txLen := rfl
@[simp] theorem openMessage_txNad (total : BitVec 12) (s : State) : (openMessage total s).txNad = s.txNad := rfl
@[simp] theorem openMessage_txFrame (total : BitVec 12) (s : State) : (openMessage total s).txFrame = s.txFrame := rfl
@[simp] theorem openMessage_rxState (total : BitVec 12) (s : State) : (openMessage total s).rxState = .awaitCf := rfl
@[simp] theorem openMessage_rxErr (total : BitVec 12) (s : State) : (openMessage total s).rxErr = s.rxErr := rfl
@[simp] theorem openMessage_rxTotal (total : BitVec 12) (s : State) : (openMessage total s).rxTotal = total := rfl
@[simp] theorem openMessage_rxRemaining (total : BitVec 12) (s : State) : (openMessage total s).rxRemaining = total - BitVec.ofNat 12 Config.ffData := rfl
@[simp] theorem openMessage_rxSeq (total : BitVec 12) (s : State) : (openMessage total s).rxSeq = 1#4 := rfl
@[simp] theorem openMessage_rspOk (total : BitVec 12) (s : State) : (openMessage total s).rspOk = s.rspOk := rfl
@[simp] theorem openMessage_rspData (total : BitVec 12) (s : State) : (openMessage total s).rspData = s.rspData := rfl
@[simp] theorem openMessage_txbuf (total : BitVec 12) (s : State) : (openMessage total s).txbuf = s.txbuf := rfl
@[simp] theorem openMessage_rxbuf (total : BitVec 12) (s : State) : (openMessage total s).rxbuf = s.rxbuf := rfl
@[simp] theorem openMessage_inputs (total : BitVec 12) (s : State) : (openMessage total s).inputs = s.inputs := rfl
@[simp] theorem openMessage_linkIn (total : BitVec 12) (s : State) : (openMessage total s).linkIn = s.linkIn := rfl
@[simp] theorem openMessage_linkOut (total : BitVec 12) (s : State) : (openMessage total s).linkOut = s.linkOut := rfl

/-! ## advanceRx -/

@[simp] theorem advanceRx_txState (remaining : BitVec 12) (s : State) : (advanceRx remaining s).txState = s.txState := rfl
@[simp] theorem advanceRx_txErr (remaining : BitVec 12) (s : State) : (advanceRx remaining s).txErr = s.txErr := rfl
@[simp] theorem advanceRx_txDone (remaining : BitVec 12) (s : State) : (advanceRx remaining s).txDone = s.txDone := rfl
@[simp] theorem advanceRx_txLen (remaining : BitVec 12) (s : State) : (advanceRx remaining s).txLen = s.txLen := rfl
@[simp] theorem advanceRx_txNad (remaining : BitVec 12) (s : State) : (advanceRx remaining s).txNad = s.txNad := rfl
@[simp] theorem advanceRx_txFrame (remaining : BitVec 12) (s : State) : (advanceRx remaining s).txFrame = s.txFrame := rfl
@[simp] theorem advanceRx_rxState (remaining : BitVec 12) (s : State) : (advanceRx remaining s).rxState = if remaining = 0#12 then .complete else s.rxState := rfl
@[simp] theorem advanceRx_rxErr (remaining : BitVec 12) (s : State) : (advanceRx remaining s).rxErr = s.rxErr := rfl
@[simp] theorem advanceRx_rxTotal (remaining : BitVec 12) (s : State) : (advanceRx remaining s).rxTotal = s.rxTotal := rfl
@[simp] theorem advanceRx_rxRemaining (remaining : BitVec 12) (s : State) : (advanceRx remaining s).rxRemaining = remaining := rfl
@[simp] theorem advanceRx_rxSeq (remaining : BitVec 12) (s : State) : (advanceRx remaining s).rxSeq = s.rxSeq + 1#4 := rfl
@[simp] theorem advanceRx_rspOk (remaining : BitVec 12) (s : State) : (advanceRx remaining s).rspOk = s.rspOk := rfl
@[simp] theorem advanceRx_rspData (remaining : BitVec 12) (s : State) : (advanceRx remaining s).rspData = s.rspData := rfl
@[simp] theorem advanceRx_txbuf (remaining : BitVec 12) (s : State) : (advanceRx remaining s).txbuf = s.txbuf := rfl
@[simp] theorem advanceRx_rxbuf (remaining : BitVec 12) (s : State) : (advanceRx remaining s).rxbuf = s.rxbuf := rfl
@[simp] theorem advanceRx_inputs (remaining : BitVec 12) (s : State) : (advanceRx remaining s).inputs = s.inputs := rfl
@[simp] theorem advanceRx_linkIn (remaining : BitVec 12) (s : State) : (advanceRx remaining s).linkIn = s.linkIn := rfl
@[simp] theorem advanceRx_linkOut (remaining : BitVec 12) (s : State) : (advanceRx remaining s).linkOut = s.linkOut := rfl

/-! ## endRead -/

@[simp] theorem endRead_txState (s : State) : (endRead s).txState = s.txState := rfl
@[simp] theorem endRead_txErr (s : State) : (endRead s).txErr = s.txErr := rfl
@[simp] theorem endRead_txDone (s : State) : (endRead s).txDone = s.txDone := rfl
@[simp] theorem endRead_txLen (s : State) : (endRead s).txLen = s.txLen := rfl
@[simp] theorem endRead_txNad (s : State) : (endRead s).txNad = s.txNad := rfl
@[simp] theorem endRead_txFrame (s : State) : (endRead s).txFrame = s.txFrame := rfl
@[simp] theorem endRead_rxState (s : State) : (endRead s).rxState = .awaitFs := rfl
@[simp] theorem endRead_rxErr (s : State) : (endRead s).rxErr = .none := rfl
@[simp] theorem endRead_rxTotal (s : State) : (endRead s).rxTotal = s.rxTotal := rfl
@[simp] theorem endRead_rxRemaining (s : State) : (endRead s).rxRemaining = 0#12 := rfl
@[simp] theorem endRead_rxSeq (s : State) : (endRead s).rxSeq = 1#4 := rfl
@[simp] theorem endRead_rspOk (s : State) : (endRead s).rspOk = s.rspOk := rfl
@[simp] theorem endRead_rspData (s : State) : (endRead s).rspData = s.rspData := rfl
@[simp] theorem endRead_txbuf (s : State) : (endRead s).txbuf = s.txbuf := rfl
@[simp] theorem endRead_rxbuf (s : State) : (endRead s).rxbuf = s.rxbuf := rfl
@[simp] theorem endRead_inputs (s : State) : (endRead s).inputs = s.inputs := rfl
@[simp] theorem endRead_linkIn (s : State) : (endRead s).linkIn = s.linkIn := rfl
@[simp] theorem endRead_linkOut (s : State) : (endRead s).linkOut = s.linkOut := rfl

/-! ## dropInput -/

@[simp] theorem dropInput_txState (s : State) : (dropInput s).txState = s.txState := rfl
@[simp] theorem dropInput_txErr (s : State) : (dropInput s).txErr = s.txErr := rfl
@[simp] theorem dropInput_txDone (s : State) : (dropInput s).txDone = s.txDone := rfl
@[simp] theorem dropInput_txLen (s : State) : (dropInput s).txLen = s.txLen := rfl
@[simp] theorem dropInput_txNad (s : State) : (dropInput s).txNad = s.txNad := rfl
@[simp] theorem dropInput_txFrame (s : State) : (dropInput s).txFrame = s.txFrame := rfl
@[simp] theorem dropInput_rxState (s : State) : (dropInput s).rxState = s.rxState := rfl
@[simp] theorem dropInput_rxErr (s : State) : (dropInput s).rxErr = s.rxErr := rfl
@[simp] theorem dropInput_rxTotal (s : State) : (dropInput s).rxTotal = s.rxTotal := rfl
@[simp] theorem dropInput_rxRemaining (s : State) : (dropInput s).rxRemaining = s.rxRemaining := rfl
@[simp] theorem dropInput_rxSeq (s : State) : (dropInput s).rxSeq = s.rxSeq := rfl
@[simp] theorem dropInput_rspOk (s : State) : (dropInput s).rspOk = s.rspOk := rfl
@[simp] theorem dropInput_rspData (s : State) : (dropInput s).rspData = s.rspData := rfl
@[simp] theorem dropInput_txbuf (s : State) : (dropInput s).txbuf = s.txbuf := rfl
@[simp] theorem dropInput_rxbuf (s : State) : (dropInput s).rxbuf = s.rxbuf := rfl
@[simp] theorem dropInput_inputs (s : State) : (dropInput s).inputs = s.inputs.tail := rfl
@[simp] theorem dropInput_linkIn (s : State) : (dropInput s).linkIn = s.linkIn := rfl
@[simp] theorem dropInput_linkOut (s : State) : (dropInput s).linkOut = s.linkOut := rfl

/-! ## resetBlock -/

@[simp] theorem resetBlock_txState (s : State) : (resetBlock s).txState = .idle := rfl
@[simp] theorem resetBlock_txErr (s : State) : (resetBlock s).txErr = .none := rfl
@[simp] theorem resetBlock_txDone (s : State) : (resetBlock s).txDone = false := rfl
@[simp] theorem resetBlock_txLen (s : State) : (resetBlock s).txLen = 0#16 := rfl
@[simp] theorem resetBlock_txNad (s : State) : (resetBlock s).txNad = 0#8 := rfl
@[simp] theorem resetBlock_txFrame (s : State) : (resetBlock s).txFrame = 0#10 := rfl
@[simp] theorem resetBlock_rxState (s : State) : (resetBlock s).rxState = .awaitFs := rfl
@[simp] theorem resetBlock_rxErr (s : State) : (resetBlock s).rxErr = .none := rfl
@[simp] theorem resetBlock_rxTotal (s : State) : (resetBlock s).rxTotal = 0#12 := rfl
@[simp] theorem resetBlock_rxRemaining (s : State) : (resetBlock s).rxRemaining = 0#12 := rfl
@[simp] theorem resetBlock_rxSeq (s : State) : (resetBlock s).rxSeq = 1#4 := rfl
@[simp] theorem resetBlock_rspOk (s : State) : (resetBlock s).rspOk = false := rfl
@[simp] theorem resetBlock_rspData (s : State) : (resetBlock s).rspData = 0#8 := rfl
@[simp] theorem resetBlock_txbuf (s : State) : (resetBlock s).txbuf = [] := rfl
@[simp] theorem resetBlock_rxbuf (s : State) : (resetBlock s).rxbuf = [] := rfl
@[simp] theorem resetBlock_inputs (s : State) : (resetBlock s).inputs = s.inputs := rfl
@[simp] theorem resetBlock_linkIn (s : State) : (resetBlock s).linkIn = s.linkIn := rfl
@[simp] theorem resetBlock_linkOut (s : State) : (resetBlock s).linkOut = s.linkOut := rfl

/-! ## raise .payloadTooLarge -/

@[simp] theorem raise_payloadTooLarge_txState (s : State) : (raise .payloadTooLarge s).txState = s.txState := rfl
@[simp] theorem raise_payloadTooLarge_txErr (s : State) : (raise .payloadTooLarge s).txErr = .payloadTooLarge := rfl
@[simp] theorem raise_payloadTooLarge_txDone (s : State) : (raise .payloadTooLarge s).txDone = s.txDone := rfl
@[simp] theorem raise_payloadTooLarge_txLen (s : State) : (raise .payloadTooLarge s).txLen = s.txLen := rfl
@[simp] theorem raise_payloadTooLarge_txNad (s : State) : (raise .payloadTooLarge s).txNad = s.txNad := rfl
@[simp] theorem raise_payloadTooLarge_txFrame (s : State) : (raise .payloadTooLarge s).txFrame = s.txFrame := rfl
@[simp] theorem raise_payloadTooLarge_rxState (s : State) : (raise .payloadTooLarge s).rxState = s.rxState := rfl
@[simp] theorem raise_payloadTooLarge_rxErr (s : State) : (raise .payloadTooLarge s).rxErr = s.rxErr := rfl
@[simp] theorem raise_payloadTooLarge_rxTotal (s : State) : (raise .payloadTooLarge s).rxTotal = s.rxTotal := rfl
@[simp] theorem raise_payloadTooLarge_rxRemaining (s : State) : (raise .payloadTooLarge s).rxRemaining = s.rxRemaining := rfl
@[simp] theorem raise_payloadTooLarge_rxSeq (s : State) : (raise .payloadTooLarge s).rxSeq = s.rxSeq := rfl
@[simp] theorem raise_payloadTooLarge_rspOk (s : State) : (raise .payloadTooLarge s).rspOk = s.rspOk := rfl
@[simp] theorem raise_payloadTooLarge_rspData (s : State) : (raise .payloadTooLarge s).rspData = s.rspData := rfl
@[simp] theorem raise_payloadTooLarge_txbuf (s : State) : (raise .payloadTooLarge s).txbuf = s.txbuf := rfl
@[simp] theorem raise_payloadTooLarge_rxbuf (s : State) : (raise .payloadTooLarge s).rxbuf = s.rxbuf := rfl
@[simp] theorem raise_payloadTooLarge_inputs (s : State) : (raise .payloadTooLarge s).inputs = s.inputs := rfl
@[simp] theorem raise_payloadTooLarge_linkIn (s : State) : (raise .payloadTooLarge s).linkIn = s.linkIn := rfl
@[simp] theorem raise_payloadTooLarge_linkOut (s : State) : (raise .payloadTooLarge s).linkOut = s.linkOut := rfl

/-! ## raise .framing -/

@[simp] theorem raise_framing_txState (s : State) : (raise .framing s).txState = s.txState := rfl
@[simp] theorem raise_framing_txErr (s : State) : (raise .framing s).txErr = s.txErr := rfl
@[simp] theorem raise_framing_txDone (s : State) : (raise .framing s).txDone = s.txDone := rfl
@[simp] theorem raise_framing_txLen (s : State) : (raise .framing s).txLen = s.txLen := rfl
@[simp] theorem raise_framing_txNad (s : State) : (raise .framing s).txNad = s.txNad := rfl
@[simp] theorem raise_framing_txFrame (s : State) : (raise .framing s).txFrame = s.txFrame := rfl
@[simp] theorem raise_framing_rxState (s : State) : (raise .framing s).rxState = .failed := rfl
@[simp] theorem raise_framing_rxErr (s : State) : (raise .framing s).rxErr = .framing := rfl
@[simp] theorem raise_framing_rxTotal (s : State) : (raise .framing s).rxTotal = s.rxTotal := rfl
@[simp] theorem raise_framing_rxRemaining (s : State) : (raise .framing s).rxRemaining = s.rxRemaining := rfl
@[simp] theorem raise_framing_rxSeq (s : State) : (raise .framing s).rxSeq = s.rxSeq := rfl
@[simp] theorem raise_framing_rspOk (s : State) : (raise .framing s).rspOk = s.rspOk := rfl
@[simp] theorem raise_framing_rspData (s : State) : (raise .framing s).rspData = s.rspData := rfl
@[simp] theorem raise_framing_txbuf (s : State) : (raise .framing s).txbuf = s.txbuf := rfl
@[simp] theorem raise_framing_rxbuf (s : State) : (raise .framing s).rxbuf = s.rxbuf := rfl
@[simp] theorem raise_framing_inputs (s : State) : (raise .framing s).inputs = s.inputs := rfl
@[simp] theorem raise_framing_linkIn (s : State) : (raise .framing s).linkIn = s.linkIn := rfl
@[simp] theorem raise_framing_linkOut (s : State) : (raise .framing s).linkOut = s.linkOut := rfl

/-! ## raise .sequence -/

@[simp] theorem raise_sequence_txState (s : State) : (raise .sequence s).txState = s.txState := rfl
@[simp] theorem raise_sequence_txErr (s : State) : (raise .sequence s).txErr = s.txErr := rfl
@[simp] theorem raise_sequence_txDone (s : State) : (raise .sequence s).txDone = s.txDone := rfl
@[simp] theorem raise_sequence_txLen (s : State) : (raise .sequence s).txLen = s.txLen := rfl
@[simp] theorem raise_sequence_txNad (s : State) : (raise .sequence s).txNad = s.txNad := rfl
@[simp] theorem raise_sequence_txFrame (s : State) : (raise .sequence s).txFrame = s.txFrame := rfl
@[simp] theorem raise_sequence_rxState (s : State) : (raise .sequence s).rxState = .failed := rfl
@[simp] theorem raise_sequence_rxErr (s : State) : (raise .sequence s).rxErr = .sequence := rfl
@[simp] theorem raise_sequence_rxTotal (s : State) : (raise .sequence s).rxTotal = s.rxTotal := rfl
@[simp] theorem raise_sequence_rxRemaining (s : State) : (raise .sequence s).rxRemaining = s.rxRemaining := rfl
@[simp] theorem raise_sequence_rxSeq (s : State) : (raise .sequence s).rxSeq = s.rxSeq := rfl
@[simp] theorem raise_sequence_rspOk (s : State) : (raise .sequence s).rspOk = s.rspOk := rfl
@[simp] theorem raise_sequence_rspData (s : State) : (raise .sequence s).rspData = s.rspData := rfl
@[simp] theorem raise_sequence_txbuf (s : State) : (raise .sequence s).txbuf = s.txbuf := rfl
@[simp] theorem raise_sequence_rxbuf (s : State) : (raise .sequence s).rxbuf = s.rxbuf := rfl
@[simp] theorem raise_sequence_inputs (s : State) : (raise .sequence s).inputs = s.inputs := rfl
@[simp] theorem raise_sequence_linkIn (s : State) : (raise .sequence s).linkIn = s.linkIn := rfl
@[simp] theorem raise_sequence_linkOut (s : State) : (raise .sequence s).linkOut = s.linkOut := rfl

/-! ## The reset state -/

@[simp] theorem reset_txState : State.reset.txState = .idle := rfl
@[simp] theorem reset_txErr : State.reset.txErr = .none := rfl
@[simp] theorem reset_txDone : State.reset.txDone = false := rfl
@[simp] theorem reset_txLen : State.reset.txLen = 0#16 := rfl
@[simp] theorem reset_txNad : State.reset.txNad = 0#8 := rfl
@[simp] theorem reset_txFrame : State.reset.txFrame = 0#10 := rfl
@[simp] theorem reset_rxState : State.reset.rxState = .awaitFs := rfl
@[simp] theorem reset_rxErr : State.reset.rxErr = .none := rfl
@[simp] theorem reset_rxTotal : State.reset.rxTotal = 0#12 := rfl
@[simp] theorem reset_rxRemaining : State.reset.rxRemaining = 0#12 := rfl
@[simp] theorem reset_rxSeq : State.reset.rxSeq = 1#4 := rfl
@[simp] theorem reset_rspOk : State.reset.rspOk = false := rfl
@[simp] theorem reset_rspData : State.reset.rspData = 0#8 := rfl
@[simp] theorem reset_txbuf : State.reset.txbuf = [] := rfl
@[simp] theorem reset_rxbuf : State.reset.rxbuf = [] := rfl
@[simp] theorem reset_inputs : State.reset.inputs = [] := rfl
@[simp] theorem reset_linkIn : State.reset.linkIn = [] := rfl
@[simp] theorem reset_linkOut : State.reset.linkOut = [] := rfl

/-! ## emitFrame: what the Link's acceptance changes, last frame or not -/

theorem emitFrame_txState (p : PortFrame) (s : State) :
    (emitFrame p s).txState = if s.txFrame.toNat + 1 = nframes s.txLen.toNat then .idle else s.txState := by
  unfold emitFrame
  split <;> rfl

@[simp] theorem emitFrame_txErr (p : PortFrame) (s : State) : (emitFrame p s).txErr = s.txErr := by
  unfold emitFrame
  split <;> rfl

theorem emitFrame_txDone (p : PortFrame) (s : State) :
    (emitFrame p s).txDone = if s.txFrame.toNat + 1 = nframes s.txLen.toNat then true else s.txDone := by
  unfold emitFrame
  split <;> rfl

@[simp] theorem emitFrame_txLen (p : PortFrame) (s : State) : (emitFrame p s).txLen = s.txLen := by
  unfold emitFrame
  split <;> rfl

@[simp] theorem emitFrame_txNad (p : PortFrame) (s : State) : (emitFrame p s).txNad = s.txNad := by
  unfold emitFrame
  split <;> rfl

@[simp] theorem emitFrame_txFrame (p : PortFrame) (s : State) : (emitFrame p s).txFrame = s.txFrame + 1#10 := by
  unfold emitFrame
  split <;> rfl

@[simp] theorem emitFrame_rxState (p : PortFrame) (s : State) : (emitFrame p s).rxState = s.rxState := by
  unfold emitFrame
  split <;> rfl

@[simp] theorem emitFrame_rxErr (p : PortFrame) (s : State) : (emitFrame p s).rxErr = s.rxErr := by
  unfold emitFrame
  split <;> rfl

@[simp] theorem emitFrame_rxTotal (p : PortFrame) (s : State) : (emitFrame p s).rxTotal = s.rxTotal := by
  unfold emitFrame
  split <;> rfl

@[simp] theorem emitFrame_rxRemaining (p : PortFrame) (s : State) : (emitFrame p s).rxRemaining = s.rxRemaining := by
  unfold emitFrame
  split <;> rfl

@[simp] theorem emitFrame_rxSeq (p : PortFrame) (s : State) : (emitFrame p s).rxSeq = s.rxSeq := by
  unfold emitFrame
  split <;> rfl

@[simp] theorem emitFrame_rspOk (p : PortFrame) (s : State) : (emitFrame p s).rspOk = s.rspOk := by
  unfold emitFrame
  split <;> rfl

@[simp] theorem emitFrame_rspData (p : PortFrame) (s : State) : (emitFrame p s).rspData = s.rspData := by
  unfold emitFrame
  split <;> rfl

@[simp] theorem emitFrame_txbuf (p : PortFrame) (s : State) : (emitFrame p s).txbuf = s.txbuf := by
  unfold emitFrame
  split <;> rfl

@[simp] theorem emitFrame_rxbuf (p : PortFrame) (s : State) : (emitFrame p s).rxbuf = s.rxbuf := by
  unfold emitFrame
  split <;> rfl

@[simp] theorem emitFrame_inputs (p : PortFrame) (s : State) : (emitFrame p s).inputs = s.inputs := by
  unfold emitFrame
  split <;> rfl

@[simp] theorem emitFrame_linkIn (p : PortFrame) (s : State) : (emitFrame p s).linkIn = s.linkIn := by
  unfold emitFrame
  split <;> rfl

@[simp] theorem emitFrame_linkOut (p : PortFrame) (s : State) : (emitFrame p s).linkOut = s.linkOut ++ [p] := by
  unfold emitFrame
  split <;> rfl

end Sys2Proof.Machine
end

