-- ==== Sys2Proof/Laws/Exec.lean ====
section
/-! SUPPORT. What each shared operation, each instruction and each step can do, said once: case lemmas for the dispatches, and
`Effect`, the list of everything an instruction can do to the state. -/

namespace Sys2Proof.Machine

/-! ## The dispatches -/

theorem unlessSending_idle {s : State} (act : State → State) (h : s.txState = .idle) : unlessSending act s = act s := by
  simp [unlessSending, h]

theorem unlessSending_sending {s : State} (act : State → State) (h : s.txState = .sending) :
    unlessSending act s = reject s := by
  simp [unlessSending, h]

theorem byRxState_awaitFs {s : State} (inFs inCf : State → Host.Outcome State Fault Refusal) (h : s.rxState = .awaitFs) :
    byRxState inFs inCf s = inFs s := by
  simp [byRxState, h]

theorem byRxState_awaitCf {s : State} (inFs inCf : State → Host.Outcome State Fault Refusal) (h : s.rxState = .awaitCf) :
    byRxState inFs inCf s = inCf s := by
  simp [byRxState, h]

theorem byRxState_ended {s : State} (inFs inCf : State → Host.Outcome State Fault Refusal)
    (h : s.rxState = .complete ∨ s.rxState = .failed) : byRxState inFs inCf s = .next s := by
  rcases h with h | h <;> simp [byRxState, h]

theorem lrxReady_iff (s : State) : lrxReady s = true ↔ s.rxState = .awaitFs ∨ s.rxState = .awaitCf := by
  simp [lrxReady]

theorem lrxReady_eq_false_iff (s : State) : lrxReady s = false ↔ s.rxState = .complete ∨ s.rxState = .failed := by
  cases h : s.rxState <;> simp [lrxReady, h]

theorem ltxValid_iff (s : State) : ltxValid s = true ↔ s.txState = .sending := by
  simp [ltxValid]

theorem frameDue_iff (s : State) :
    frameDue s = true ↔ s.txLen.toNat ≤ 4095 ∧ s.txFrame.toNat < nframes s.txLen.toNat := by
  unfold frameDue
  rw [Bool.and_eq_true]
  exact and_congr decide_eq_true_iff decide_eq_true_iff

theorem legalSingle_iff (dl : BitVec 4) : legalSingle dl = true ↔ dl.toNat ≤ 6 :=
  decide_eq_true_iff

theorem legalFirst_iff (dl : BitVec 12) : legalFirst dl = true ↔ 7 ≤ dl.toNat :=
  decide_eq_true_iff

@[simp] theorem bytes_length (d : DataArea) : d.bytes.length = 6 := rfl

@[simp] theorem firstBytes_length (d : FirstData) : d.bytes.length = 5 := rfl

@[simp] theorem unpad_length (d : DataArea) (n : Nat) : (unpad d n).length = min n 6 := by
  simp [unpad]

theorem appendLen_le (s : State) : appendLen s ≤ 6 ∧ appendLen s ≤ s.rxRemaining.toNat := by
  simp only [appendLen, Config.cfData]
  omega

/-! ## The Framer -/

/-- `NFRAMES` in numbers (R130). -/
theorem nframes_eq (len : Nat) : nframes len = if len ≤ 6 then 1 else 1 + (len - 5 + 5) / 6 := rfl

/-- `off(k)` in numbers (R134). -/
theorem sliceStart_eq (k : Nat) : sliceStart k = if k = 0 then 0 else 5 + 6 * (k - 1) := rfl

/-- The bytes a frame carries, in numbers (R132 to R134). -/
theorem sliceLen_eq (len k : Nat) :
    sliceLen len k = if len ≤ 6 then len else if k = 0 then 5 else min 6 (len - sliceStart k) := rfl

/-- What `FrameK` gives: a frame exactly when every cell it reads is written, made of their bytes. -/
theorem frameK_eq_some_iff (nad : Byte) (buf : Memory) (len k : Nat) (f : Frame) :
    frameK nad buf len k = some f ↔
      ∃ d, Memory.readRange buf (sliceStart k) (sliceLen len k) = some d ∧ f = frameOf nad len k d := by
  unfold frameK
  cases h : Memory.readRange buf (sliceStart k) (sliceLen len k) with
  | none => simp
  | some d => simp [eq_comm]

/-- Everything a Framer step can do. -/
theorem framerStep_cases (s : State) :
    (s.txState = .idle ∧ framerStep s = .next s) ∨
    (s.txState = .sending ∧ frameDue s = false ∧ framerStep s = .fault .noSuchFrame) ∨
    (s.txState = .sending ∧ frameDue s = true ∧
      frameK s.txNad s.txbuf s.txLen.toNat s.txFrame.toNat = none ∧ framerStep s = .fault .unwrittenRead) ∨
    (∃ f, s.txState = .sending ∧ frameDue s = true ∧
      frameK s.txNad s.txbuf s.txLen.toNat s.txFrame.toNat = some f ∧
      framerStep s = .next (emitFrame (packFrame f) s)) := by
  unfold framerStep
  cases hs : s.txState with
  | idle => simp
  | sending =>
    cases hd : frameDue s with
    | false => simp
    | true => cases hf : frameK s.txNad s.txbuf s.txLen.toNat s.txFrame.toNat <;> simp

/-- The Framer's step where its frame is due and written (R137). -/
theorem framerStep_emits {s : State} {f : Frame} (hs : s.txState = .sending) (hd : frameDue s = true)
    (hf : frameK s.txNad s.txbuf s.txLen.toNat s.txFrame.toNat = some f) :
    framerStep s = .next (emitFrame (packFrame f) s) := by
  simp [framerStep, hs, hd, hf]

/-- The Framer's stop where a cell of its frame is unwritten (R137, R234). -/
theorem framerStep_unwritten {s : State} (hs : s.txState = .sending) (hd : frameDue s = true)
    (hf : frameK s.txNad s.txbuf s.txLen.toNat s.txFrame.toNat = none) : framerStep s = .fault .unwrittenRead := by
  simp [framerStep, hs, hd, hf]

/-- A frame of a message carries as many bytes as its slice is long. -/
theorem length_sliceOf {m : List Byte} {k : Nat} (hk : k < nframes m.length) :
    (sliceOf m k).length = sliceLen m.length k := by
  simp only [sliceOf, List.length_take, List.length_drop]
  rw [nframes_eq] at hk
  rw [sliceLen_eq, sliceStart_eq]
  split_ifs at hk ⊢ <;> omega

/-- What the port `ltx_frame` shows: a frame exactly in `SENDING`, with a frame due and its cells written. -/
theorem ltxFrame_eq_some_iff (s : State) (p : PortFrame) :
    (outPorts s).ltxFrame = some p ↔
      s.txState = .sending ∧ frameDue s = true ∧
      ∃ f, frameK s.txNad s.txbuf s.txLen.toNat s.txFrame.toNat = some f ∧ packFrame f = p := by
  simp [outPorts, offered, ltxValid_iff, and_assoc]

/-- `ltx_frame` depends on the transmit registers and `TXBUF` alone. -/
theorem ltxFrame_congr {s t : State} (hs : t.txState = s.txState) (hl : t.txLen = s.txLen) (hn : t.txNad = s.txNad)
    (hf : t.txFrame = s.txFrame) (hb : t.txbuf = s.txbuf) : (outPorts t).ltxFrame = (outPorts s).ltxFrame := by
  simp [outPorts, offered, frameDue, ltxValid, hs, hl, hn, hf, hb]

/-! ## Instructions -/

/-- Everything an instruction can do to the state when it answers a next state. -/
inductive Effect (s : State) : State → Prop where
  | rejected : Effect s (reject s)
  | answered (b : Byte) : Effect s (accept b s)
  | stored (idx : BitVec 12) (data : Byte) (idle : s.txState = .idle) :
      Effect s (accept 0#8 (storeTx idx.toNat data s))
  | tooLong (len : BitVec 16) (nad : Byte) (idle : s.txState = .idle) (long : 4095 < len.toNat) :
      Effect s (accept 0#8 (raise .payloadTooLarge (loadTx len nad s)))
  | started (len : BitVec 16) (nad : Byte) (idle : s.txState = .idle) (legal : len.toNat ≤ 4095) :
      Effect s (accept 0#8 (startTx (loadTx len nad s)))
  | acknowledged (ended : s.rxState = .complete ∨ s.rxState = .failed) : Effect s (accept 0#8 (endRead s))
  | blocked (ended : s.rxState = .complete ∨ s.rxState = .failed) : Effect s s
  | framing (ready : s.rxState = .awaitFs ∨ s.rxState = .awaitCf) : Effect s (raise .framing s)
  | sequence (await : s.rxState = .awaitCf) : Effect s (raise .sequence s)
  | single (dl : BitVec 4) (d : DataArea) (await : s.rxState = .awaitFs) (legal : dl.toNat ≤ 6) :
      Effect s (completeSingle (dl.setWidth 12) (storeRx 0 (unpad d dl.toNat) s))
  | first (dl : BitVec 12) (d : FirstData) (await : s.rxState = .awaitFs) (legal : 7 ≤ dl.toNat) :
      Effect s (openMessage dl (storeRx 0 d.bytes s))
  | appended (d : DataArea) (await : s.rxState = .awaitCf) (within : s.rxRemaining ≤ s.rxTotal) :
      Effect s (advanceRx (s.rxRemaining - BitVec.ofNat 12 (appendLen s))
        (storeRx (writePointer s) (unpad d (appendLen s)) s))

/-- The effects of a frame, by the dispatch on `RX_STATE`. -/
theorem byRxState_effect {s t : State} {inFs inCf : State → Host.Outcome State Fault Refusal}
    (hFs : s.rxState = .awaitFs → inFs s = .next t → Effect s t)
    (hCf : s.rxState = .awaitCf → inCf s = .next t → Effect s t)
    (h : byRxState inFs inCf s = .next t) : Effect s t := by
  cases hs : s.rxState with
  | awaitFs => exact hFs hs (by rwa [byRxState_awaitFs _ _ hs] at h)
  | awaitCf => exact hCf hs (by rwa [byRxState_awaitCf _ _ hs] at h)
  | complete =>
    rw [byRxState_ended _ _ (.inl hs)] at h
    cases h
    exact .blocked (.inl hs)
  | failed =>
    rw [byRxState_ended _ _ (.inr hs)] at h
    cases h
    exact .blocked (.inr hs)

theorem framingError_effect {s t : State} (hr : s.rxState = .awaitFs ∨ s.rxState = .awaitCf)
    (h : framingError s = .next t) : Effect s t := by
  cases h
  exact .framing hr

/-- Every instruction that answers a next state has one of the effects listed. -/
theorem exec_effect {i : Instr} {s t : State} (h : exec i s = .next t) : Effect s t := by
  cases i with
  | nop => cases h; exact .answered 0#8
  | txbWr idx data =>
    cases h
    cases hs : s.txState with
    | idle => rw [unlessSending_idle _ hs]; exact .stored idx data hs
    | sending => rw [unlessSending_sending _ hs]; exact .rejected
  | txStart len nad =>
    cases h
    cases hs : s.txState with
    | idle =>
      rw [unlessSending_idle _ hs]
      by_cases hl : Config.msgMax < len.toNat
      · rw [if_pos hl]; exact .tooLong len nad hs hl
      · rw [if_neg hl]; exact .started len nad hs (by simpa [Config.msgMax] using hl)
    | sending => rw [unlessSending_sending _ hs]; exact .rejected
  | rxbRd idx =>
    simp only [exec, execRxbRd] at h
    split at h
    · cases h; exact .answered _
    · cases h
  | rxAck =>
    simp only [exec, execRxAck] at h
    split_ifs at h with hs
    · cases h; exact .acknowledged hs
    · cases h; exact .rejected
  | reservedOp5 rest => cases h; exact .rejected
  | reservedOp6 rest => cases h; exact .rejected
  | reservedOp7 rest => cases h; exact .rejected
  | reservedOp8_15 op rest => cases h; exact .rejected
  | sf nad dl d =>
    refine byRxState_effect (fun hs ht => ?_) (fun hs ht => framingError_effect (.inr hs) ht) h
    simp only [takeSingle] at ht
    split_ifs at ht with hl
    · cases ht; exact .single dl d hs ((legalSingle_iff dl).mp hl)
    · exact framingError_effect (.inl hs) ht
  | ff nad dl d =>
    refine byRxState_effect (fun hs ht => ?_) (fun hs ht => framingError_effect (.inr hs) ht) h
    simp only [takeFirst] at ht
    split_ifs at ht with hl
    · cases ht; exact .first dl d hs ((legalFirst_iff dl).mp hl)
    · exact framingError_effect (.inl hs) ht
  | cf nad sn d =>
    refine byRxState_effect (fun hs ht => framingError_effect (.inl hs) ht) (fun hs ht => ?_) h
    simp only [takeConsecutive] at ht
    split_ifs at ht with hn
    · simp only [appendConsecutive] at ht
      split_ifs at ht with hw
      cases ht
      exact .appended d hs hw
    · cases ht; exact .sequence hs
  | reservedType3 nad lo d =>
    exact byRxState_effect (fun hs ht => framingError_effect (.inl hs) ht) (fun hs ht => framingError_effect (.inr hs) ht) h
  | reservedType4_7 nad type lo d =>
    exact byRxState_effect (fun hs ht => framingError_effect (.inl hs) ht) (fun hs ht => framingError_effect (.inr hs) ht) h
  | reservedType8_F nad type lo d =>
    exact byRxState_effect (fun hs ht => framingError_effect (.inl hs) ht) (fun hs ht => framingError_effect (.inr hs) ht) h

/-- Everything at which an instruction stops: RXB_RD of an unwritten cell, and a Consecutive frame with no write pointer. -/
theorem exec_fault_cases {i : Instr} {s : State} {f : Fault} (h : exec i s = .fault f) :
    (∃ idx, i = .rxbRd idx ∧ Memory.read s.rxbuf idx.toNat = none ∧ f = .unwrittenRead) ∨
    (∃ nad sn d, i = .cf nad sn d ∧ s.rxState = .awaitCf ∧ sn = s.rxSeq ∧ ¬ s.rxRemaining ≤ s.rxTotal ∧
      f = .noWritePointer) := by
  cases i with
  | rxbRd idx =>
    simp only [exec, execRxbRd] at h
    split at h
    · cases h
    · next hr =>
      cases h
      exact .inl ⟨idx, rfl, hr, rfl⟩
  | cf nad sn d =>
    cases hs : s.rxState <;> simp only [exec, execCf, byRxState, hs, framingError, reduceCtorEq] at h
    simp only [takeConsecutive, appendConsecutive, sequenceError] at h
    split_ifs at h with hn hw
    cases h
    exact .inr ⟨nad, sn, d, rfl, rfl, hn, hw, rfl⟩
  | sf nad dl d =>
    simp only [exec, execSf, byRxState, takeSingle, framingError] at h
    split at h <;> first | cases h | (split at h <;> cases h)
  | ff nad dl d =>
    simp only [exec, execFf, byRxState, takeFirst, framingError] at h
    split at h <;> first | cases h | (split at h <;> cases h)
  | reservedType3 nad lo d =>
    simp only [exec, execReservedType3, byRxState, framingError] at h
    split at h <;> cases h
  | reservedType4_7 nad type lo d =>
    simp only [exec, execReservedType4_7, byRxState, framingError] at h
    split at h <;> cases h
  | reservedType8_F nad type lo d =>
    simp only [exec, execReservedType8_F, byRxState, framingError] at h
    split at h <;> cases h
  | nop => cases h
  | txbWr idx data => cases h
  | txStart len nad => cases h
  | rxAck => cases h
  | reservedOp5 rest => cases h
  | reservedOp6 rest => cases h
  | reservedOp7 rest => cases h
  | reservedOp8_15 op rest => cases h

/-- No instruction is refused. -/
theorem exec_ne_refused (i : Instr) (s : State) (r : Refusal) : exec i s ≠ .refused r := by
  cases i <;>
    simp only [exec, execNop, execTxbWr, execTxStart, execRxbRd, execRxAck, execReservedOp5, execReservedOp6, execReservedOp7,
      execReservedOp8_15, execSf, execFf, execCf, execReservedType3, execReservedType4_7, execReservedType8_F, byRxState,
      takeSingle, takeFirst, takeConsecutive, appendConsecutive, framingError, sequenceError, ne_eq, reduceCtorEq,
      not_false_eq_true]
  all_goals repeat' split
  all_goals simp

/-! ## Steps -/

theorem step_nil {s : State} (h : s.inputs = []) : step s = .next s := by
  simp [step, h]

theorem step_cons {s : State} {e : Input} {rest : List Input} (h : s.inputs = e :: rest) :
    step s = runInput e { s with inputs := rest } := by
  simp [step, dropInput, h]

theorem hostStep_ok {w : Word32} {i : Instr} (s : State) (h : decode (.command w) = .ok i) : hostStep w s = exec i s := by
  simp [hostStep, h]

theorem hostStep_error {w : Word32} {e : DecodeError} (s : State) (h : decode (.command w) = .error e) :
    hostStep w s = .next (reject s) := by
  simp [hostStep, h, rejectMalformed]

/-- A Host step that answers a next state has one of the effects of an instruction; a malformed word's is the rejection. -/
theorem hostStep_effect {w : Word32} {s t : State} (h : hostStep w s = .next t) : Effect s t := by
  cases hd : decode (.command w) with
  | ok i => exact exec_effect (by rwa [hostStep_ok s hd] at h)
  | error e =>
    rw [hostStep_error s hd] at h
    cases h
    exact .rejected

theorem offerStep_nil {s : State} (h : s.linkIn = []) : offerStep s = .next s := by
  simp [offerStep, h]

theorem offerStep_ready {s : State} {p : PortFrame} {later : List PortFrame} (h : s.linkIn = p :: later)
    (hr : lrxReady s = true) : offerStep s = consume p { s with linkIn := later } := by
  simp [offerStep, h, hr]

theorem offerStep_blocked {s : State} (hr : lrxReady s = false) : offerStep s = .next s := by
  cases h : s.linkIn <;> simp [offerStep, h, hr]

/-- Everything a step can do when it answers a next state: wait, reset, an instruction's effect on the state whose input (and
offered frame) is taken, or a frame emitted. -/
theorem step_next_cases {s t : State} (h : step s = .next t) :
    (s.inputs = [] ∧ t = s) ∨
    (∃ e rest, s.inputs = e :: rest ∧
      ((isReset e = true ∧ t = resetBlock { s with inputs := rest }) ∨
       (∃ w, e = .command w ∧ hostStep w { s with inputs := rest } = .next t ∧ Effect { s with inputs := rest } t) ∨
       (e = .linkReady ∧ s.txState = .idle ∧ t = { s with inputs := rest }) ∨
       (∃ f, e = .linkReady ∧ s.txState = .sending ∧ frameDue s = true ∧
         frameK s.txNad s.txbuf s.txLen.toNat s.txFrame.toNat = some f ∧
         t = emitFrame (packFrame f) { s with inputs := rest }) ∨
       (e = .linkOffer ∧ (s.linkIn = [] ∨ lrxReady s = false) ∧ t = { s with inputs := rest }) ∨
       (∃ p later, e = .linkOffer ∧ s.linkIn = p :: later ∧ lrxReady s = true ∧
         consume p { s with inputs := rest, linkIn := later } = .next t ∧
         Effect { s with inputs := rest, linkIn := later } t))) := by
  cases hi : s.inputs with
  | nil =>
    rw [step_nil hi] at h
    cases h
    exact .inl ⟨rfl, rfl⟩
  | cons e rest =>
    refine .inr ⟨e, rest, rfl, ?_⟩
    rw [step_cons hi] at h
    cases e with
    | reset c r o =>
      cases h
      exact .inl ⟨rfl, rfl⟩
    | command w => exact .inr (.inl ⟨w, rfl, h, hostStep_effect h⟩)
    | linkReady =>
      rcases framerStep_cases { s with inputs := rest } with ⟨h1, h2⟩ | ⟨_, _, h2⟩ | ⟨_, _, _, h2⟩ | ⟨f, h1, hd, hf, h2⟩
      · rw [runInput, h2] at h
        cases h
        exact .inr (.inr (.inl ⟨rfl, h1, rfl⟩))
      · rw [runInput, h2] at h
        cases h
      · rw [runInput, h2] at h
        cases h
      · rw [runInput, h2] at h
        cases h
        exact .inr (.inr (.inr (.inl ⟨f, rfl, h1, hd, hf, rfl⟩)))
    | linkOffer =>
      let u : State := { s with inputs := rest }
      rcases Bool.eq_false_or_eq_true (lrxReady s) with hr | hr
      · obtain hl | ⟨p, later, hl⟩ : s.linkIn = [] ∨ ∃ p later, s.linkIn = p :: later := by
          cases s.linkIn <;> simp
        · have h1 : offerStep u = .next t := h
          rw [offerStep_nil (s := u) hl] at h1
          exact .inr (.inr (.inr (.inr (.inl ⟨rfl, .inl hl, (Host.Outcome.next.inj h1).symm⟩))))
        · have h1 : offerStep u = .next t := h
          rw [offerStep_ready (s := u) hl hr] at h1
          exact .inr (.inr (.inr (.inr (.inr ⟨p, later, rfl, hl, hr, h1, exec_effect h1⟩))))
      · have h1 : offerStep u = .next t := h
        rw [offerStep_blocked (s := u) hr] at h1
        exact .inr (.inr (.inr (.inr (.inl ⟨rfl, .inr hr, (Host.Outcome.next.inj h1).symm⟩))))

/-- Everything at which a step stops: an instruction's stop, a frame that is not due, or a frame with an unwritten cell. -/
theorem step_fault_cases {s : State} {f : Fault} (h : step s = .fault f) :
    (∃ w i rest, s.inputs = .command w :: rest ∧ decode (.command w) = .ok i ∧ exec i { s with inputs := rest } = .fault f) ∨
    (∃ p rest later, s.inputs = .linkOffer :: rest ∧ s.linkIn = p :: later ∧
      exec (decodeFrame (unpackFrame p)) { s with inputs := rest, linkIn := later } = .fault f) ∨
    (∃ rest, s.inputs = .linkReady :: rest ∧ s.txState = .sending ∧ frameDue s = false ∧ f = .noSuchFrame) ∨
    (∃ rest, s.inputs = .linkReady :: rest ∧ s.txState = .sending ∧ frameDue s = true ∧
      frameK s.txNad s.txbuf s.txLen.toNat s.txFrame.toNat = none ∧ f = .unwrittenRead) := by
  cases hi : s.inputs with
  | nil =>
    rw [step_nil hi] at h
    cases h
  | cons e rest =>
    rw [step_cons hi] at h
    cases e with
    | reset c r o => cases h
    | command w =>
      cases hd : decode (.command w) with
      | ok i =>
        rw [runInput, hostStep_ok _ hd] at h
        exact .inl ⟨w, i, rest, rfl, hd, h⟩
      | error e =>
        rw [runInput, hostStep_error _ hd] at h
        cases h
    | linkReady =>
      rcases framerStep_cases { s with inputs := rest } with ⟨_, h2⟩ | ⟨h1, hd, h2⟩ | ⟨h1, hd, hf, h2⟩ | ⟨_, _, _, _, h2⟩ <;>
        rw [runInput, h2] at h <;> cases h
      · exact .inr (.inr (.inl ⟨rest, rfl, h1, hd, rfl⟩))
      · exact .inr (.inr (.inr ⟨rest, rfl, h1, hd, hf, rfl⟩))
    | linkOffer =>
      simp only [runInput, offerStep] at h
      split at h
      · cases h
      · next p later hl =>
        split at h
        · exact .inr (.inl ⟨p, rest, later, rfl, hl, h⟩)
        · cases h

/-- No step is refused. -/
theorem step_ne_refused (s : State) (r : Refusal) : step s ≠ .refused r := by
  intro h
  cases hi : s.inputs with
  | nil =>
    rw [step_nil hi] at h
    cases h
  | cons e rest =>
    rw [step_cons hi] at h
    cases e with
    | reset c r o => cases h
    | command w =>
      cases hd : decode (.command w) with
      | ok i => exact exec_ne_refused i _ r (by rwa [runInput, hostStep_ok _ hd] at h)
      | error e =>
        rw [runInput, hostStep_error _ hd] at h
        cases h
    | linkReady =>
      rcases framerStep_cases { s with inputs := rest } with ⟨_, h2⟩ | ⟨_, _, h2⟩ | ⟨_, _, _, h2⟩ | ⟨_, _, _, _, h2⟩ <;>
        rw [runInput, h2] at h <;> cases h
    | linkOffer =>
      simp only [runInput, offerStep] at h
      split at h
      · cases h
      · split at h
        · exact exec_ne_refused _ _ r h
        · cases h

end Sys2Proof.Machine
end

