-- ==== Sys2Proof/Laws/PerInstr.lean ====
section
/-! SUPPORT. One lemma per instruction: its encoding has the fixed fields of its row of spec/opcode_table.json, written out
here from the table's `fixed` entries (spec/30_encoding.md R72, R79, R81, R85). -/

namespace Sys2Proof.Laws

/-- A fixed field of a row: its bits `hi` down to `lo` and their value. -/
structure RowBits.Fixed where
  hi : Nat
  lo : Nat
  value : Nat
deriving DecidableEq, Repr

/-- The number the table's bits speak of: a command word, or the PCI byte of a frame. -/
def RowBits.bits : Encoded → Nat
  | .command w => w.toNat
  | .frame p => (portByte p 1).toNat

/-- The fixed fields of an instruction's row. -/
def RowBits.row : Instr → List RowBits.Fixed
  | .nop => [⟨31, 0, 0⟩]
  | .txbWr _ _ => [⟨3, 0, 1⟩, ⟨31, 24, 0⟩]
  | .txStart _ _ => [⟨3, 0, 2⟩, ⟨31, 28, 0⟩]
  | .rxbRd _ => [⟨11, 0, 3⟩, ⟨31, 24, 0⟩]
  | .rxAck => [⟨31, 0, 4⟩]
  | .reservedOp5 _ => [⟨3, 0, 5⟩]
  | .reservedOp6 _ => [⟨3, 0, 6⟩]
  | .reservedOp7 _ => [⟨3, 0, 7⟩]
  | .reservedOp8_15 _ _ => [⟨3, 3, 1⟩]
  | .sf _ _ _ => [⟨7, 4, 0⟩]
  | .ff _ _ _ => [⟨7, 4, 1⟩]
  | .cf _ _ _ => [⟨7, 4, 2⟩]
  | .reservedType3 _ _ _ => [⟨7, 4, 3⟩]
  | .reservedType4_7 _ _ _ _ => [⟨7, 6, 1⟩]
  | .reservedType8_F _ _ _ _ => [⟨7, 7, 1⟩]

/-- A well-formed instruction's encoding carries its row's fixed fields. -/
def RowBits.Statement (i : Instr) : Prop :=
  WellFormed i = true → ∀ f ∈ RowBits.row i, RowBits.bits (encode i) / 2 ^ f.lo % 2 ^ (f.hi + 1 - f.lo) = f.value

/-- The PCI byte of a packed frame. -/
theorem RowBits.bits_frame (f : Frame) : RowBits.bits (.frame (packFrame f)) = f.pci.toNat :=
  congrArg (fun g : Frame => g.pci.toNat) (unpackFrame_packFrame f)

theorem RowBits.nop : RowBits.Statement (.nop) := by
  intro _ f hf
  simp only [RowBits.row, List.mem_cons, List.not_mem_nil, or_false] at hf
  subst hf
  rfl

theorem RowBits.txbWr (idx : BitVec 12) (data : Byte) : RowBits.Statement (.txbWr idx data) := by
  intro _ f hf
  simp only [RowBits.row, List.mem_cons, List.not_mem_nil, or_false] at hf
  rcases hf with rfl | rfl <;>
  · simp only [RowBits.bits, encode, txbWrWord_toNat]
    omega

theorem RowBits.txStart (len : BitVec 16) (nad : Byte) : RowBits.Statement (.txStart len nad) := by
  intro _ f hf
  simp only [RowBits.row, List.mem_cons, List.not_mem_nil, or_false] at hf
  rcases hf with rfl | rfl <;>
  · simp only [RowBits.bits, encode, txStartWord_toNat]
    omega

theorem RowBits.rxbRd (idx : BitVec 12) : RowBits.Statement (.rxbRd idx) := by
  intro _ f hf
  simp only [RowBits.row, List.mem_cons, List.not_mem_nil, or_false] at hf
  rcases hf with rfl | rfl <;>
  · simp only [RowBits.bits, encode, rxbRdWord_toNat]
    omega

theorem RowBits.rxAck : RowBits.Statement (.rxAck) := by
  intro _ f hf
  simp only [RowBits.row, List.mem_cons, List.not_mem_nil, or_false] at hf
  subst hf
  rfl

theorem RowBits.reservedOp5 (rest : BitVec 28) : RowBits.Statement (.reservedOp5 rest) := by
  intro _ f hf
  simp only [RowBits.row, List.mem_cons, List.not_mem_nil, or_false] at hf
  subst hf
  simp only [RowBits.bits, encode, reservedWord_toNat, BitVec.toNat_ofNat]
  omega

theorem RowBits.reservedOp6 (rest : BitVec 28) : RowBits.Statement (.reservedOp6 rest) := by
  intro _ f hf
  simp only [RowBits.row, List.mem_cons, List.not_mem_nil, or_false] at hf
  subst hf
  simp only [RowBits.bits, encode, reservedWord_toNat, BitVec.toNat_ofNat]
  omega

theorem RowBits.reservedOp7 (rest : BitVec 28) : RowBits.Statement (.reservedOp7 rest) := by
  intro _ f hf
  simp only [RowBits.row, List.mem_cons, List.not_mem_nil, or_false] at hf
  subst hf
  simp only [RowBits.bits, encode, reservedWord_toNat, BitVec.toNat_ofNat]
  omega

theorem RowBits.reservedOp8_15 (op : BitVec 4) (rest : BitVec 28) : RowBits.Statement (.reservedOp8_15 op rest) := by
  intro h f hf
  have h8 : 8 ≤ op.toNat := of_decide_eq_true h
  simp only [RowBits.row, List.mem_cons, List.not_mem_nil, or_false] at hf
  subst hf
  simp only [RowBits.bits, encode, reservedWord_toNat]
  omega

theorem RowBits.sf (nad : Byte) (dl : BitVec 4) (d : DataArea) : RowBits.Statement (.sf nad dl d) := by
  intro _ f hf
  simp only [RowBits.row, List.mem_cons, List.not_mem_nil, or_false] at hf
  subst hf
  simp only [encode, RowBits.bits_frame, pciOf_toNat, BitVec.toNat_ofNat]
  omega

theorem RowBits.ff (nad : Byte) (dl : BitVec 12) (d : FirstData) : RowBits.Statement (.ff nad dl d) := by
  intro _ f hf
  simp only [RowBits.row, List.mem_cons, List.not_mem_nil, or_false] at hf
  subst hf
  simp only [encode, RowBits.bits_frame, pciOf_toNat, BitVec.toNat_ofNat]
  omega

theorem RowBits.cf (nad : Byte) (sn : BitVec 4) (d : DataArea) : RowBits.Statement (.cf nad sn d) := by
  intro _ f hf
  simp only [RowBits.row, List.mem_cons, List.not_mem_nil, or_false] at hf
  subst hf
  simp only [encode, RowBits.bits_frame, pciOf_toNat, BitVec.toNat_ofNat]
  omega

theorem RowBits.reservedType3 (nad : Byte) (lo : BitVec 4) (d : DataArea) : RowBits.Statement (.reservedType3 nad lo d) := by
  intro _ f hf
  simp only [RowBits.row, List.mem_cons, List.not_mem_nil, or_false] at hf
  subst hf
  simp only [encode, RowBits.bits_frame, pciOf_toNat, BitVec.toNat_ofNat]
  omega

theorem RowBits.reservedType4_7 (nad : Byte) (type : BitVec 4) (lo : BitVec 4) (d : DataArea) : RowBits.Statement (.reservedType4_7 nad type lo d) := by
  intro h f hf
  have h4 : 4 ≤ type.toNat ∧ type.toNat ≤ 7 := by simpa [WellFormed, wfType4_7] using h
  simp only [RowBits.row, List.mem_cons, List.not_mem_nil, or_false] at hf
  subst hf
  simp only [encode, RowBits.bits_frame, pciOf_toNat]
  omega

theorem RowBits.reservedType8_F (nad : Byte) (type : BitVec 4) (lo : BitVec 4) (d : DataArea) : RowBits.Statement (.reservedType8_F nad type lo d) := by
  intro h f hf
  have h8 : 8 ≤ type.toNat := of_decide_eq_true h
  simp only [RowBits.row, List.mem_cons, List.not_mem_nil, or_false] at hf
  subst hf
  simp only [encode, RowBits.bits_frame, pciOf_toNat]
  omega

end Sys2Proof.Laws
end

