-- ==== Sys2Proof/Tests/Slice0.lean ====
section
/-! SUPPORT. Tests. Words and expected results are written out from spec/30_encoding.md and spec/95_test_vectors.md; each
`witness_` theorem shows concrete values that meet all hypotheses of the statement it is named after. -/

namespace Sys2Proof.Tests

open Sys2Proof.Machine

/-! ## Helpers -/

/-- The outcome is a next state with the property. -/
def nextP (o : Host.Outcome State Fault Refusal) (p : State → Bool) : Bool :=
  match o with
  | .next s => p s
  | .fault _ => false
  | .refused _ => false

/-- The outcome is this fault. -/
def faultIs (o : Host.Outcome State Fault Refusal) (f : Fault) : Bool :=
  match o with
  | .next _ => false
  | .fault g => g = f
  | .refused _ => false

/-- A data area from numbers. -/
def area (a b c d e f : Nat) : DataArea :=
  { b2 := BitVec.ofNat 8 a, b3 := BitVec.ofNat 8 b, b4 := BitVec.ofNat 8 c, b5 := BitVec.ofNat 8 d,
    b6 := BitVec.ofNat 8 e, b7 := BitVec.ofNat 8 f }

/-- The five bytes of a First frame from numbers. -/
def five (a b c d e : Nat) : FirstData :=
  { b3 := BitVec.ofNat 8 a, b4 := BitVec.ofNat 8 b, b5 := BitVec.ofNat 8 c, b6 := BitVec.ofNat 8 d, b7 := BitVec.ofNat 8 e }

/-- The Host presents word `w`. -/
def withWord (w : Word32) (s : State) : State := { s with inputs := [.command w] }

/-- The Link offers frame `p`. -/
def withOffer (p : PortFrame) (s : State) : State := { s with inputs := [.linkOffer], linkIn := [p] }

/-- The Link accepts. -/
def withReady (s : State) : State := { s with inputs := [.linkReady] }

/-- Sending the message 22 12 34 from its first frame on (program P1). -/
def sendingState : State :=
  { State.reset with txState := .sending, txLen := 3#16, txNad := 0x0A#8, txbuf := [(0, 0x22#8), (1, 0x12#8), (2, 0x34#8)] }

/-- Sending a two-byte message of which only the first byte was written (V-F17). -/
def unwrittenState : State :=
  { State.reset with txState := .sending, txLen := 2#16, txNad := 0x0A#8, txbuf := [(0, 0x11#8)] }

/-- After the First frame 0A 10 0D 01 02 03 04 05 (section 2.4). -/
def openState : State :=
  { State.reset with rxState := .awaitCf, rxTotal := 13#12, rxRemaining := 8#12, rxSeq := 1#4,
                     rxbuf := [(0, 1#8), (1, 2#8), (2, 3#8), (3, 4#8), (4, 5#8)] }

/-- The message 22 12 34 received (V-R2). -/
def completeState : State :=
  { State.reset with rxState := .complete, rxTotal := 3#12, rxbuf := [(0, 0x22#8), (1, 0x12#8), (2, 0x34#8)] }

/-- A failed read with the Link's next frame a Consecutive one (V-R14, V-H13). -/
def failedState : State :=
  { openState with rxState := .failed, rxErr := .sequence }

/-! ## Well-formedness refuses -/

theorem test_wf_refuses_op7_as_op8_15 : WellFormed (.reservedOp8_15 7#4 0#28) = false := by decide

theorem test_wf_refuses_type3_as_type4_7 : WellFormed (.reservedType4_7 0#8 3#4 0#4 (area 0 0 0 0 0 0)) = false := by decide

theorem test_wf_refuses_type8_as_type4_7 : WellFormed (.reservedType4_7 0#8 8#4 0#4 (area 0 0 0 0 0 0)) = false := by decide

theorem test_wf_refuses_type7_as_type8_F : WellFormed (.reservedType8_F 0#8 7#4 0#4 (area 0 0 0 0 0 0)) = false := by decide

/-! ## Decoding, every constructor: words from the encoding strings of R81 and the layouts of R73 to R75 -/

theorem test_decode_nop : decodeTableWord 32 0b00000000000000000000000000000000 = some .nop := by decide

/-- V-E4. -/
theorem test_decode_txbWr : decodeTableWord 32 0b00000000111111111111111111110001 = some (.txbWr 4095#12 0xFF#8) := by decide

/-- V-E1. -/
theorem test_decode_txbWr_first : decodeTableWord 32 0b00000000000000000000001000100001 = some (.txbWr 0#12 0x22#8) := by decide

/-- V-E3: bits 27:24 are part of the length. -/
theorem test_decode_txStart : decodeTableWord 32 0b00000001000000000000000010100010 = some (.txStart 4096#16 0x0A#8) := by decide

/-- V-E5. -/
theorem test_decode_rxbRd : decodeTableWord 32 0b00000000000000000010000000000011 = some (.rxbRd 2#12) := by decide

theorem test_decode_rxAck : decodeTableWord 32 0b00000000000000000000000000000100 = some .rxAck := by decide

/-- V-E6. -/
theorem test_decode_reservedOp5 : decodeTableWord 32 0x00000005 = some (.reservedOp5 0#28) := by decide

theorem test_decode_reservedOp6 : decodeTableWord 32 0xABCDEF16 = some (.reservedOp6 0xABCDEF1#28) := by decide

theorem test_decode_reservedOp7 : decodeTableWord 32 0x00000017 = some (.reservedOp7 1#28) := by decide

theorem test_decode_reservedOp8_15 : decodeTableWord 32 0x0000000F = some (.reservedOp8_15 15#4 0#28) := by decide

/-- The frame 0A 03 22 12 34 FF FF FF as V-E15 packs it. -/
theorem test_decode_sf : decode (.frame 0xFFFFFF341222030A#64) = .ok (.sf 0x0A#8 3#4 (area 0x22 0x12 0x34 0xFF 0xFF 0xFF)) := by rfl

/-- V-E12: 0A 1F FF 01 02 03 04 05 announces 4095 bytes. -/
theorem test_decode_ff : decode (.frame 0x0504030201FF1F0A#64) = .ok (.ff 0x0A#8 4095#12 (five 1 2 3 4 5)) := by rfl

/-- V-E13: 0A 2F .. carries sequence number 15. -/
theorem test_decode_cf : decode (.frame 0x0B0A090807062F0A#64) = .ok (.cf 0x0A#8 15#4 (area 6 7 8 9 10 11)) := by rfl

theorem test_decode_reservedType3 : decodeTableWord 8 0b00110000 = some (.reservedType3 0#8 0#4 (area 0 0 0 0 0 0)) := by decide

theorem test_decode_reservedType4_7 : decodeTableWord 8 0b01111010 = some (.reservedType4_7 0#8 7#4 10#4 (area 0 0 0 0 0 0)) := by decide

/-- V-E14. -/
theorem test_decode_reservedType8_F : decodeTableWord 8 0b11110101 = some (.reservedType8_F 0#8 15#4 5#4 (area 0 0 0 0 0 0)) := by decide

/-! ## Must-be-zero bits (V-E7 to V-E10) -/

theorem test_malformed_txStart_refused : decodeTableWord 32 0x10000002 = none := by decide

theorem test_malformed_rxbRd_refused : decodeTableWord 32 0x00001013 = none := by decide

theorem test_malformed_rxAck_refused : decodeTableWord 32 0x00000014 = none := by decide

theorem test_malformed_txbWr_refused : decodeTableWord 32 0x01000001 = none := by decide

/-- V-H17: rejected, the Framer does not start. -/
theorem test_malformed_word_is_rejected :
    nextP (step (withWord 0x10000002#32 State.reset)) (fun t => !t.rspOk && t.txState = .idle) = true := by decide

/-! ## Encoding -/

theorem test_encode_txbWr : encode (.txbWr 12#12 0x0D#8) = .command 0x0000C0D1#32 := by decide

theorem test_encode_txStart : encode (.txStart 65535#16 0x0A#8) = .command 0x0FFFF0A2#32 := by decide

theorem test_encode_ff : encode (.ff 0x0B#8 13#12 (five 1 2 3 4 5)) = .frame 0x05040302010D100B#64 := by decide

/-! ## Host commands, one step each (section 2.2) -/

/-- V-H1. -/
theorem test_step_nop : nextP (step (withWord 0#32 State.reset)) (fun t => t.rspOk && status0 t = 0x00000100#32) = true := by decide

/-- V-H3: the spare cell. -/
theorem test_step_txbWr :
    nextP (step (withWord 0x00FFFFF1#32 State.reset)) (fun t => t.rspOk && Memory.read t.txbuf 4095 = some 0xFF#8) = true := by decide

/-- V-H4. -/
theorem test_step_txbWr_sending :
    nextP (step (withWord 0x00000991#32 sendingState)) (fun t => !t.rspOk && Memory.read t.txbuf 0 = some 0x22#8) = true := by decide

/-- V-H5. -/
theorem test_step_txStart :
    nextP (step (withWord 0x000030A2#32 { sendingState with txState := .idle }))
      (fun t => status0 t = 0x00000101#32 && status2 t = 0x000A0003#32) = true := by decide

/-- V-H8. -/
theorem test_step_txStart_too_long :
    nextP (step (withWord 0x010000A2#32 State.reset))
      (fun t => t.rspOk && status0 t = 0x00000104#32 && status2 t = 0x000A1000#32) = true := by decide

/-- V-H11. -/
theorem test_step_rxbRd :
    nextP (step (withWord 0x00002003#32 completeState)) (fun t => t.rspOk && t.rspData = 0x34#8 && t.rxState = .complete) = true := by decide

/-- V-H12. -/
theorem test_step_rxbRd_unwritten : faultIs (step (withWord 0x00000003#32 State.reset)) .unwrittenRead = true := by decide

/-- V-H13: `RX_TOTAL` is kept. -/
theorem test_step_rxAck :
    nextP (step (withWord 0x00000004#32 { failedState with rxSeq := 2#4 }))
      (fun t => t.rspOk && status0 t = 0x0000D100#32 && status1 t = 0#32) = true := by decide

/-- V-H15. -/
theorem test_step_rxAck_rejected :
    nextP (step (withWord 0x00000004#32 openState)) (fun t => !t.rspOk && status0 t = 0x0000D110#32) = true := by decide

/-- V-H16. -/
theorem test_step_reserved : nextP (step (withWord 0x0000000F#32 completeState)) (fun t => !t.rspOk && t.rspData = 0#8) = true := by decide

/-! ## Framer (section 2.3) -/

/-- P1: the frame of V-E15, then the message is done. -/
theorem test_framer_single :
    nextP (step (withReady sendingState))
      (fun t => t.linkOut = [0xFFFFFF341222030A#64] && status0 t = 0x00000102#32 && status1 t = 0x00001000#32) = true := by decide

/-- V-F17. -/
theorem test_framer_unwritten : faultIs (step (withReady unwrittenState)) .unwrittenRead = true := by decide

/-- V-F7, its last frame 0A 22 0C 0D FF FF FF FF. -/
theorem test_encode_last_consecutive :
    encCF 0x0A#8 2 [0x0C#8, 0x0D#8] = { nad := 0x0A#8, pci := 0x22#8, data := area 0x0C 0x0D 0xFF 0xFF 0xFF 0xFF } := by decide

/-- V-F13: the First frame of the longest message. -/
theorem test_encode_longest_first :
    encFF 0x0A#8 4095 [0#8, 1#8, 2#8, 3#8, 4#8] = { nad := 0x0A#8, pci := 0x1F#8, data := area 0xFF 0 1 2 3 4 } := by decide

/-- V-F4, V-F5, V-F6, V-F9, V-F10, V-F11, V-F13. -/
theorem test_nframes : [0, 6, 7, 11, 12, 95, 96, 102, 4095].map nframes = [1, 1, 2, 2, 3, 16, 17, 18, 683] := by decide

/-! ## Reassembler (section 2.4) -/

/-- V-R2: padding other than FF is ignored. -/
theorem test_step_sf :
    nextP (step (withOffer 0x221100341222030A#64 State.reset))
      (fun t => status0 t = 0x00003120#32 && message t = some [0x22#8, 0x12#8, 0x34#8] && t.linkIn = []) = true := by decide

/-- V-R4. -/
theorem test_step_sf_too_long : nextP (step (withOffer 0x060504030201070A#64 State.reset)) (fun t => status0 t = 0x000001B0#32) = true := by decide

/-- V-R7. -/
theorem test_step_ff :
    nextP (step (withOffer 0x0504030201FF1F0A#64 State.reset)) (fun t => status0 t = 0x00FFF110#32 && status1 t = 0xFFA#32) = true := by decide

/-- V-R8. -/
theorem test_step_ff_too_short : nextP (step (withOffer 0x050403020106100A#64 State.reset)) (fun t => status0 t = 0x000001B0#32) = true := by decide

/-- V-R13. -/
theorem test_step_cf :
    nextP (step (withOffer 0x0B0A09080706210A#64 openState))
      (fun t => status0 t = 0x0000D210#32 && status1 t = 2#32 && Memory.read t.rxbuf 10 = some 0x0B#8) = true := by decide

/-- V-R14. -/
theorem test_step_cf_skip :
    nextP (step (withOffer 0x0B0A09080706220A#64 openState)) (fun t => status0 t = 0x0000D1F0#32 && status1 t = 8#32) = true := by decide

/-- V-R10. -/
theorem test_step_cf_before_first : nextP (step (withOffer 0x0B0A09080706210A#64 State.reset)) (fun t => status0 t = 0x000001B0#32) = true := by decide

/-- V-R16: a Single frame whose low nibble is the number expected. -/
theorem test_step_sf_in_await_cf :
    nextP (step (withOffer 0xFFFFFFFFFF55010A#64 openState)) (fun t => status0 t = 0x0000D1B0#32 && status1 t = 8#32) = true := by decide

/-- V-R18. -/
theorem test_step_reservedType3 : nextP (step (withOffer 0x000000000000310A#64 openState)) (fun t => status0 t = 0x0000D1B0#32) = true := by decide

/-- V-R12. -/
theorem test_step_reservedType8_F : nextP (step (withOffer 0x000000000000F50A#64 State.reset)) (fun t => status0 t = 0x000001B0#32) = true := by decide

/-- V-R23: not consumed. -/
theorem test_step_blocked :
    nextP (step (withOffer 0x000000000000000B#64 completeState)) (fun t => t.linkIn = [0xB#64] && status0 t = 0x00003120#32) = true := by decide

/-! ## Reset (section 2.5) -/

/-- V-X6: no command is performed and no frame is consumed. -/
theorem test_step_reset :
    nextP (step { openState with inputs := [.reset (some 0x000030A2#32) true true], linkIn := [7#64] })
      (fun t => status0 t = 0x00000100#32 && status2 t = 0#32 && t.rxbuf = [] && t.linkIn = [7#64]) = true := by decide

/-! ## Witnesses: the hypotheses of each statement, met together -/

theorem witness_DecodeEncodeRoundTrip : WellFormed (.reservedOp8_15 8#4 3#28) = true := by decide

theorem witness_EncodeDecodeRoundTrip : decode (.command 0x0000000F#32) = .ok (.reservedOp8_15 15#4 0#28) := by rfl

theorem witness_malformed_op0 : malformed 0x00000010#32 := by simp [malformed, opOf]

theorem witness_malformed_op1 : malformed 0x01000001#32 := by simp [malformed, opOf]

theorem witness_malformed_op2 : malformed 0x10000002#32 := by simp [malformed, opOf]

theorem witness_malformed_op3 : malformed 0x00000013#32 ∧ malformed 0x01000003#32 := by simp [malformed, opOf]

theorem witness_malformed_op4 : malformed 0x00000014#32 := by simp [malformed, opOf]

theorem witness_MalformedWordIsRejected :
    (withWord 0x10000002#32 State.reset).inputs = .command 0x10000002#32 :: [] ∧ malformed 0x10000002#32 :=
  ⟨rfl, witness_malformed_op2⟩

theorem witness_ReservedWordIsRejected :
    (withWord 0x00000005#32 State.reset).inputs = .command 0x00000005#32 :: [] ∧ 5 ≤ opOf 0x00000005#32 := by decide

theorem witness_StepRunsDecodedCommand :
    (withWord 0x000030A2#32 State.reset).inputs = .command 0x000030A2#32 :: [] ∧
    decode (.command 0x000030A2#32) = .ok (.txStart 3#16 0x0A#8) := ⟨rfl, rfl⟩

theorem witness_StepRunsDecodedFrame :
    (withOffer 0xFFFFFF341222030A#64 State.reset).inputs = .linkOffer :: [] ∧
    (withOffer 0xFFFFFF341222030A#64 State.reset).linkIn = 0xFFFFFF341222030A#64 :: [] ∧
    ((withOffer 0xFFFFFF341222030A#64 State.reset).rxState = .awaitFs ∨
      (withOffer 0xFFFFFF341222030A#64 State.reset).rxState = .awaitCf) ∧
    decode (.frame 0xFFFFFF341222030A#64) = .ok (.sf 0x0A#8 3#4 (area 0x22 0x12 0x34 0xFF 0xFF 0xFF)) :=
  ⟨rfl, rfl, .inl rfl, rfl⟩

theorem witness_StepFollowsHandshakes_reset : (inPorts { State.reset with inputs := [.reset none false false] }).rst = true := by decide

theorem witness_StepFollowsHandshakes_host :
    (inPorts (withWord 0#32 State.reset)).rst = false ∧ (inPorts (withWord 0#32 State.reset)).cmdValid = true := by decide

theorem witness_StepFollowsHandshakes_framer :
    (inPorts (withReady sendingState)).rst = false ∧ (inPorts (withReady sendingState)).ltxReady = true ∧
    (outPorts (withReady sendingState)).ltxValid = true := by decide

theorem witness_StepFollowsHandshakes_reassembler :
    (inPorts (withOffer 0#64 State.reset)).rst = false ∧ (inPorts (withOffer 0#64 State.reset)).lrxValid = true ∧
    (outPorts (withOffer 0#64 State.reset)).lrxReady = true := by decide

theorem witness_StepFollowsHandshakes_none :
    (inPorts (withOffer 0#64 completeState)).rst = false ∧ (inPorts (withOffer 0#64 completeState)).cmdValid = false ∧
    ((inPorts (withOffer 0#64 completeState)).ltxReady && (outPorts (withOffer 0#64 completeState)).ltxValid) = false ∧
    ((inPorts (withOffer 0#64 completeState)).lrxValid && (outPorts (withOffer 0#64 completeState)).lrxReady) = false := by decide

theorem witness_EndedReadConsumesNothing_offer :
    ((withOffer 0#64 completeState).rxState = .complete ∨ (withOffer 0#64 completeState).rxState = .failed) ∧
    (withOffer 0#64 completeState).inputs = .linkOffer :: [] := by decide

theorem witness_EndedReadConsumesNothing_left :
    (withWord rxAckWord failedState).rxState = .failed ∧
    nextP (step (withWord rxAckWord failedState)) (fun t => t.rxState ≠ .failed) = true := by decide

theorem witness_idle : State.reset.txState = .idle := by decide

theorem witness_sending : sendingState.txState = .sending := by decide

/-- For TxbWrWritesOneCell and TxStartStartsLegalMessage, at the longest legal length. -/
theorem witness_TxStartStartsLegalMessage : State.reset.txState = .idle ∧ (4095#16).toNat ≤ 4095 := by decide

/-- For OversizeStartRecordsPayloadTooLarge, at the shortest length too long. -/
theorem witness_OversizeStartRecordsPayloadTooLarge : State.reset.txState = .idle ∧ 4095 < (4096#16).toNat := by decide

theorem witness_RxbRdAnswersCell : Memory.read completeState.rxbuf (2#12).toNat = some 0x34#8 := by decide

theorem witness_RxAckEndsReadOrIsRejected_ends : completeState.rxState = .complete ∨ completeState.rxState = .failed := by decide

theorem witness_RxAckEndsReadOrIsRejected_rejected : openState.rxState = .awaitFs ∨ openState.rxState = .awaitCf := by decide

/-- The word of RXB_RD 2 in `COMPLETE` is not rejected. -/
theorem witness_HostStepsAnswer_read :
    (withWord 0x00002003#32 completeState).inputs = .command 0x00002003#32 :: [] ∧
    nextP (step (withWord 0x00002003#32 completeState)) (fun _ => true) = true ∧
    ¬ rejectedWord 0x00002003#32 (withWord 0x00002003#32 completeState) ∧ opOf 0x00002003#32 = 3 := by
  refine ⟨rfl, by decide, ?_, by decide⟩
  simp [rejectedWord, malformed, opOf]

theorem witness_HostStepsAnswer_accepted :
    (withWord 0#32 completeState).inputs = .command 0#32 :: [] ∧
    nextP (step (withWord 0#32 completeState)) (fun _ => true) = true ∧
    ¬ rejectedWord 0#32 (withWord 0#32 completeState) ∧ opOf 0#32 ≠ 3 := by
  refine ⟨rfl, by decide, ?_, by decide⟩
  simp [rejectedWord, malformed, opOf]

/-- Each row of the table of rejections. -/
theorem witness_RejectedWordChangesOnlyResponse :
    rejectedWord 5#32 State.reset ∧ rejectedWord 0x10#32 State.reset ∧ rejectedWord 1#32 sendingState ∧
    rejectedWord 4#32 State.reset := by
  simp [rejectedWord, malformed, opOf, sendingState, State.reset]

theorem witness_CommandChecksInOrder_sending :
    (withWord 0x010000A2#32 sendingState).inputs = .command 0x010000A2#32 :: [] ∧ ¬ malformed 0x010000A2#32 ∧
    opOf 0x010000A2#32 = 2 ∧ (withWord 0x010000A2#32 sendingState).txState = .sending := by
  refine ⟨rfl, ?_, by decide, rfl⟩
  simp [malformed, opOf]

theorem witness_CommandChecksInOrder_ack :
    ¬ malformed 4#32 ∧ opOf 4#32 = 4 ∧ (withWord 4#32 openState).rxState = .awaitCf := by
  refine ⟨?_, by decide, rfl⟩
  simp [malformed, opOf]

theorem witness_CommandChecksInOrder_idle :
    ¬ malformed 0x010000A2#32 ∧ opOf 0x010000A2#32 = 2 ∧ (withWord 0x010000A2#32 State.reset).txState = .idle := by
  refine ⟨?_, by decide, rfl⟩
  simp [malformed, opOf]

/-- The last frame of a message, with its three cells written. -/
theorem witness_FramerEmitsNextFrame :
    (withReady sendingState).inputs = .linkReady :: [] ∧ (withReady sendingState).txState = .sending ∧
    [0x22#8, 0x12#8, 0x34#8].length ≤ 4095 ∧ (withReady sendingState).txLen.toNat = [0x22#8, 0x12#8, 0x34#8].length ∧
    (withReady sendingState).txFrame.toNat = 0 ∧ 0 < nframes [0x22#8, 0x12#8, 0x34#8].length ∧
    0 + 1 = nframes [0x22#8, 0x12#8, 0x34#8].length ∧
    (∀ i < 3, Memory.read (withReady sendingState).txbuf i = [0x22#8, 0x12#8, 0x34#8][i]?) := by decide

/-- A frame that is not the last: the First frame of seven bytes, of which only the first five cells are written. -/
theorem witness_FramerEmitsNextFrame_not_last :
    0 + 1 ≠ nframes (List.replicate 7 0xEE#8).length ∧ sliceLen 7 0 = 5 ∧
    (∀ i < 5, Memory.read (Memory.writeList [] 0 (List.replicate 5 0xEE#8)) i = (List.replicate 7 0xEE#8)[i]?) := by decide

theorem witness_FramerFaultsOnUnwrittenCell :
    (withReady unwrittenState).inputs = .linkReady :: [] ∧ (withReady unwrittenState).txState = .sending ∧
    (withReady unwrittenState).txLen.toNat ≤ 4095 ∧
    (withReady unwrittenState).txFrame.toNat < nframes (withReady unwrittenState).txLen.toNat ∧
    sliceStart (withReady unwrittenState).txFrame.toNat ≤ 1 ∧
    1 < sliceStart (withReady unwrittenState).txFrame.toNat +
      sliceLen (withReady unwrittenState).txLen.toNat (withReady unwrittenState).txFrame.toNat ∧
    Memory.read (withReady unwrittenState).txbuf 1 = none := by decide

/-- The boundaries of SingleAndFirstFrameBytes: 6 bytes and 7 bytes. -/
theorem witness_SingleAndFirstFrameBytes :
    (List.replicate 6 1#8).length ≤ 6 ∧ 7 ≤ (List.replicate 7 1#8).length ∧ (List.replicate 7 1#8).length ≤ 4095 := by decide

/-- For ConsecutiveFrameBytes, the one before the last of 12 bytes and the last of 12 bytes. -/
theorem witness_ConsecutiveFrameBytes :
    1 < nframes (List.replicate 12 1#8).length ∧ 6 = min 6 ((List.replicate 12 1#8).length - (6 * 1 - 1)) ∧
    1 + 1 < nframes (List.replicate 12 1#8).length ∧
    2 < nframes (List.replicate 12 1#8).length ∧ 1 = min 6 ((List.replicate 12 1#8).length - (6 * 2 - 1)) := by decide

theorem witness_FramesCoverMessage : (List.replicate 12 1#8).length ≤ 4095 := by decide

theorem witness_SequenceWrapThresholds : 7 ≤ 96 ∧ 96 ≤ 4095 ∧ 16 < nframes 96 ∧ seqOf 16 = 0#4 ∧ 17 ≤ nframes 102 - 1 := by decide

theorem witness_FramerNeverEmitsIllegalFrame :
    nextP (step (withReady sendingState)) (fun t => t.linkOut = (withReady sendingState).linkOut ++ [0xFFFFFF341222030A#64]) = true := by decide

theorem witness_OnlyLastFrameOrResetEndsMessage :
    (withReady sendingState).txState = .sending ∧ (withReady sendingState).inputs = .linkReady :: [] ∧
    (withReady sendingState).txFrame.toNat + 1 = nframes (withReady sendingState).txLen.toNat ∧
    nextP (step (withReady sendingState)) (fun t => t.txState = .idle) = true := by decide

/-- For MessageStableWhileSending: a rejected TXB_WR while sending. -/
theorem witness_MessageStableWhileSending :
    (withWord 0x00000991#32 sendingState).txState = .sending ∧
    nextP (step (withWord 0x00000991#32 sendingState)) (fun _ => true) = true ∧
    isReset (.command 0x00000991#32) = false := by decide

/-- For TransmitRunEmitsEncodeInOrder: program P1 up to its last frame, with one acceptance to come after it. -/
def transmitState : State :=
  { sendingState with txState := .idle,
                      inputs := .command (txStartWord 3#16 0x0A#8) :: (List.replicate 1 .linkReady ++ [.linkReady]) }

theorem witness_TransmitRunEmitsEncodeInOrder :
    transmitState.txState = .idle ∧ [0x22#8, 0x12#8, 0x34#8].length ≤ 4095 ∧ txHolds transmitState [0x22#8, 0x12#8, 0x34#8] ∧
    transmitState.inputs = .command (txStartWord (BitVec.ofNat 16 [0x22#8, 0x12#8, 0x34#8].length) 0x0A#8) ::
      (List.replicate (nframes [0x22#8, 0x12#8, 0x34#8].length) .linkReady ++ [.linkReady]) := by
  refine ⟨rfl, by decide, ?_, rfl⟩
  unfold txHolds
  decide

theorem witness_LegalSingleFrameCompletesRead : State.reset.rxState = .awaitFs ∧ (6#4).toNat ≤ 6 := by decide

theorem witness_LegalFirstFrameOpensMessage : State.reset.rxState = .awaitFs ∧ 7 ≤ (7#12).toNat := by decide

theorem witness_OtherFramesFailWhileAwaitingFirst :
    State.reset.rxState = .awaitFs ∧ 7 ≤ (7#4).toNat ∧ (6#12).toNat < 7 := by decide

/-- A frame that does not end the message. -/
theorem witness_MatchingConsecutiveFrameAppends :
    openState.rxState = .awaitCf ∧ 1#4 = openState.rxSeq ∧ openState.rxRemaining.toNat ≤ openState.rxTotal.toNat ∧
    6 = min 6 openState.rxRemaining.toNat ∧ openState.rxRemaining.toNat - 6 ≠ 0 := by decide

/-- A frame that ends it. -/
theorem witness_MatchingConsecutiveFrameAppends_last :
    ({ openState with rxRemaining := 2#12 } : State).rxState = .awaitCf ∧
    ({ openState with rxRemaining := 2#12 } : State).rxRemaining.toNat ≤ openState.rxTotal.toNat ∧
    2 = min 6 ({ openState with rxRemaining := 2#12 } : State).rxRemaining.toNat := by decide

theorem witness_WrongSequenceNumberFailsRead : openState.rxState = .awaitCf ∧ 2#4 ≠ openState.rxSeq := by decide

theorem witness_OtherTypesFailWhileAwaitingConsecutive : openState.rxState = .awaitCf := by decide

/-- Two Single frames of three bytes that differ in address and padding. -/
theorem witness_AddressAndPaddingDoNotMatter :
    (∀ j < significantBytes 0x03#8 State.reset, (area 1 2 3 4 5 6).bytes[j]? = (area 1 2 3 9 9 9).bytes[j]?) ∧
    (area 1 2 3 4 5 6) ≠ (area 1 2 3 9 9 9) := by decide

theorem witness_DecodeIgnoresEarlierReads :
    State.reset.rxState = .awaitFs ∧ ({ State.reset with rxTotal := 13#12, rxbuf := [(0, 9#8)] } : State).rxState = .awaitFs := by decide

theorem witness_DecodeOfEncodeIsComplete : State.reset.rxState = .awaitFs ∧ (List.replicate 13 7#8).length ≤ 4095 := by decide

/-- For LoopbackReconstructsMessage: what `transmitState` sends, offered to a block at reset. -/
theorem witness_LoopbackReconstructsMessage :
    nextP (run 2 transmitState) (fun t =>
      ({ State.reset with linkIn := [0xFFFFFF341222030A#64], inputs := [.linkOffer] } : State).linkIn =
        t.linkOut.drop transmitState.linkOut.length ++ []) = true ∧
    ({ State.reset with linkIn := [0xFFFFFF341222030A#64], inputs := [.linkOffer] } : State).rxState = .awaitFs ∧
    ({ State.reset with linkIn := [0xFFFFFF341222030A#64], inputs := [.linkOffer] } : State).inputs =
      List.replicate (nframes [0x22#8, 0x12#8, 0x34#8].length) .linkOffer ++ [] := by decide

theorem witness_StaleConsecutiveFrameFailsAgain :
    ({ failedState with inputs := [.command rxAckWord, .linkOffer], linkIn := [0x0B0A09080706220A#64] } : State).rxState = .failed ∧
    ({ failedState with inputs := [.command rxAckWord, .linkOffer], linkIn := [0x0B0A09080706220A#64] } : State).inputs =
      .command rxAckWord :: .linkOffer :: [] ∧
    pciType (portByte 0x0B0A09080706220A#64 1) = 2#4 := by decide

theorem witness_ResetStepRestoresEverything :
    ({ openState with inputs := [.reset (some 0#32) true true] } : State).inputs = .reset (some 0#32) true true :: [] := by decide

/-- A reachable state in the middle of a message meets the invariant. -/
theorem witness_openState_inv : Inv openState :=
  ⟨⟨by decide, by decide, by decide, by decide, by decide⟩, ⟨by decide, by decide, by decide, by decide⟩,
   ⟨by decide, by decide, by decide, by decide, by decide⟩⟩

theorem witness_StepKeepsInvariant :
    Inv openState ∧ nextP (step openState) (fun _ => true) = true := ⟨witness_openState_inv, by decide⟩

/-- For both stops of RunsStopOnlyAtUnwrittenReads: a state of each that meets the invariant. -/
theorem witness_RunsStopOnlyAtUnwrittenReads :
    Inv (withWord (rxbRdWord 5#12) openState) ∧ Inv (withReady unwrittenState) ∧
    Memory.read (withWord (rxbRdWord 5#12) openState).rxbuf (5#12).toNat = none ∧
    (withReady unwrittenState).txState = .sending ∧ sliceStart 0 ≤ 1 ∧ 1 < sliceStart 0 + sliceLen 2 0 ∧
    Memory.read (withReady unwrittenState).txbuf 1 = none :=
  ⟨⟨⟨by decide, by decide, by decide, by decide, by decide⟩, ⟨by decide, by decide, by decide, by decide⟩,
    ⟨by decide, by decide, by decide, by decide, by decide⟩⟩,
   ⟨⟨by decide, by decide, by decide, by decide, by decide⟩, ⟨by decide, by decide, by decide, by decide⟩,
    ⟨by decide, by decide, by decide, by decide, by decide⟩⟩, by decide⟩

theorem witness_ErrorsAreLeftOnlyAsStated_receive :
    (withWord rxAckWord failedState).rxState = .failed ∧
    nextP (step (withWord rxAckWord failedState)) (fun t => t.rxState ≠ .failed) = true := by decide

theorem witness_ErrorsAreLeftOnlyAsStated_transmit :
    (withWord (txStartWord 0#16 0x0A#8) { State.reset with txErr := .payloadTooLarge }).txErr = .payloadTooLarge ∧
    nextP (step (withWord (txStartWord 0#16 0x0A#8) { State.reset with txErr := .payloadTooLarge }))
      (fun t => t.txErr ≠ .payloadTooLarge) = true := by decide

/-- For the last clause of ErrorsAreLeftOnlyAsStated, a reset in `FAILED`. -/
theorem witness_ErrorsAreLeftOnlyAsStated_reset :
    isReset (.reset none false false) = true ∧
    nextP (step { failedState with inputs := [.reset none false false] }) (fun _ => true) = true := by decide

/-- For its clause on TX_START: the word is not rejected in `IDLE`. -/
theorem witness_ErrorsAreLeftOnlyAsStated_start :
    opOf (txStartWord 4096#16 0x0A#8) = 2 ∧
    ¬ rejectedWord (txStartWord 4096#16 0x0A#8) (withWord (txStartWord 4096#16 0x0A#8) State.reset) := by
  refine ⟨by decide, ?_⟩
  simp [rejectedWord, malformed, opOf, txStartWord, withWord, State.reset]

theorem witness_TransmitAndReceiveAreIndependent :
    nextP (step (withOffer 0#64 sendingState)) (fun _ => true) = true ∧
    nextP (step (withReady sendingState)) (fun _ => true) = true ∧
    nextP (step (withWord (txStartWord 0#16 0x0A#8) openState)) (fun _ => true) = true ∧
    nextP (step (withWord rxAckWord completeState)) (fun _ => true) = true ∧
    opOf (txStartWord 0#16 0x0A#8) = 2 ∧ opOf rxAckWord = 4 := by decide

/-- A read waits through a rejected RX_ACK and an acceptance by the Link. -/
theorem witness_WaitsHaveNoTimeout_read :
    ({ openState with inputs := [.command rxAckWord, .linkReady] } : State).rxState = .awaitCf ∧
    (∀ e ∈ ([.command rxAckWord, .linkReady] : List Input), isReset e = false ∧ e ≠ .linkOffer) ∧
    nextP (run 2 { openState with inputs := [.command rxAckWord, .linkReady] }) (fun _ => true) = true := by decide

/-- A message waits through a rejected TX_START. -/
theorem witness_WaitsHaveNoTimeout_send :
    ({ sendingState with inputs := [.command (txStartWord 0#16 0x0A#8)] } : State).txState = .sending ∧
    (∀ e ∈ ([.command (txStartWord 0#16 0x0A#8)] : List Input), isReset e = false ∧ e ≠ .linkReady) ∧
    nextP (run 3 { sendingState with inputs := [.command (txStartWord 0#16 0x0A#8)] }) (fun _ => true) = true := by decide

/-- For CompleteMessageIsReadable, at the last index of the message. -/
theorem witness_CompleteMessageIsReadable :
    Inv completeState ∧ completeState.rxState = .complete ∧ message completeState = some [0x22#8, 0x12#8, 0x34#8] ∧
    (2#12).toNat < [0x22#8, 0x12#8, 0x34#8].length :=
  ⟨⟨⟨by decide, by decide, by decide, by decide, by decide⟩, ⟨by decide, by decide, by decide, by decide⟩,
    ⟨by decide, by decide, by decide, by decide, by decide⟩⟩, by decide, by decide, by decide⟩

/-- For OutputPortsShowState; the frame is the example of R137: 0A 03 22 12 34 FF FF FF. -/
theorem witness_OutputPortsShowState :
    sendingState.txState = .sending ∧ sendingState.txLen.toNat = [0x22#8, 0x12#8, 0x34#8].length ∧
    sendingState.txFrame.toNat = 0 ∧ 0 < nframes [0x22#8, 0x12#8, 0x34#8].length ∧
    (∀ i < 3, Memory.read sendingState.txbuf i = [0x22#8, 0x12#8, 0x34#8][i]?) ∧
    (outPorts sendingState).ltxFrame = some 0xFFFFFF341222030A#64 := by decide

theorem witness_OfferedFrameIsTheOneSent :
    (withReady sendingState).inputs = .linkReady :: [] ∧
    (outPorts (withReady sendingState)).ltxFrame = some 0xFFFFFF341222030A#64 ∧
    nextP (step (withReady sendingState)) (fun t => t.linkOut ≠ (withReady sendingState).linkOut) = true := by decide

/-- The offered frame waits through a rejected TXB_WR of a cell it carries and a received frame. -/
theorem witness_OfferedFrameHoldsUntilAccepted :
    sendingState.txState = .sending ∧
    (∀ e ∈ ([.command 0x00000991#32, .linkOffer] : List Input), isReset e = false ∧ e ≠ .linkReady) ∧
    nextP (run 2 { sendingState with inputs := [.command 0x00000991#32, .linkOffer], linkIn := [0xFFFFFF341222030A#64] })
      (fun t => (outPorts t).ltxFrame = some 0xFFFFFF341222030A#64) = true := by decide

end Sys2Proof.Tests
end

/-! The decoder and the Host's step, word by word: what a command word decodes to, and what the Host's step answers, each
said once (spec/30_encoding.md R81 to R86, spec/40_host_commands.md R100 to R107). -/

namespace Sys2Proof.Machine

/-! ## Fields -/

/-- A field of a word, from its bits as a number. -/
theorem extract_eq_of_toNat {m n lo : Nat} {x : BitVec m} {f : BitVec n} (h : x.toNat / 2 ^ lo % 2 ^ n = f.toNat) :
    x.extractLsb' lo n = f :=
  BitVec.eq_of_toNat_eq ((toNat_extract x lo n).trans h)

/-- A field reads zero exactly when its bits as a number are zero. -/
theorem extract_eq_zero_iff {m lo n : Nat} (x : BitVec m) : x.extractLsb' lo n = 0#n ↔ x.toNat / 2 ^ lo % 2 ^ n = 0 := by
  rw [← BitVec.toNat_inj, toNat_extract, BitVec.toNat_ofNat, Nat.zero_mod]

/-- The decoder's `OP` and the arithmetic one agree. -/
theorem opField_eq_iff (w : Word32) {n : Nat} (hn : n < 16) : opField w = BitVec.ofNat 4 n ↔ opOf w = n := by
  rw [← BitVec.toNat_inj, opField_toNat, BitVec.toNat_ofNat, Nat.mod_eq_of_lt hn, opOf]

/-! ## Must-be-zero bits (R84), as the decoder looks at them -/

theorem malformed_iff_rest {w : Word32} (h : opOf w = 0 ∨ opOf w = 4) : malformed w ↔ restField w ≠ 0#28 := by
  rw [restField, ne_eq, extract_eq_zero_iff]
  unfold malformed
  omega

theorem malformed_iff_top8 {w : Word32} (h : opOf w = 1) : malformed w ↔ w.extractLsb' 24 8 ≠ 0#8 := by
  rw [ne_eq, extract_eq_zero_iff]
  unfold malformed
  omega

theorem malformed_iff_top4 {w : Word32} (h : opOf w = 2) : malformed w ↔ w.extractLsb' 28 4 ≠ 0#4 := by
  rw [ne_eq, extract_eq_zero_iff]
  unfold malformed
  omega

theorem malformed_iff_top8_or_byte {w : Word32} (h : opOf w = 3) :
    malformed w ↔ ¬ (w.extractLsb' 24 8 = 0#8 ∧ byteField w = 0#8) := by
  rw [byteField, extract_eq_zero_iff, extract_eq_zero_iff]
  unfold malformed
  omega

/-! ## The decoder -/

/-- Everything a command word can decode to, with what the word then is (R82 to R86). -/
inductive DecodesTo (w : Word32) : Except DecodeError Instr → Prop where
  | mustBeZero (bad : malformed w) : DecodesTo w (.error (.mustBeZero (opField w)))
  | nop (wf : ¬ malformed w) (op : opOf w = 0) : DecodesTo w (.ok .nop)
  | txbWr (wf : ¬ malformed w) (op : opOf w = 1) : DecodesTo w (.ok (.txbWr (indexField w) (byteField w)))
  | txStart (wf : ¬ malformed w) (op : opOf w = 2) : DecodesTo w (.ok (.txStart (lengthField w) (byteField w)))
  | rxbRd (wf : ¬ malformed w) (op : opOf w = 3) : DecodesTo w (.ok (.rxbRd (indexField w)))
  | rxAck (wf : ¬ malformed w) (op : opOf w = 4) : DecodesTo w (.ok .rxAck)
  | reservedOp5 (op : opOf w = 5) : DecodesTo w (.ok (.reservedOp5 (restField w)))
  | reservedOp6 (op : opOf w = 6) : DecodesTo w (.ok (.reservedOp6 (restField w)))
  | reservedOp7 (op : opOf w = 7) : DecodesTo w (.ok (.reservedOp7 (restField w)))
  | reservedOp8_15 (op : 8 ≤ opOf w) : DecodesTo w (.ok (.reservedOp8_15 (opField w) (restField w)))

/-- The check of the must-be-zero bits decides between the refusal and the instruction. -/
theorem whenClear_decodesTo {w : Word32} {clear : Bool} {i : Instr} (hc : malformed w ↔ ¬ clear = true)
    (hi : ¬ malformed w → DecodesTo w (.ok i)) : DecodesTo w (whenClear clear (opField w) i) := by
  cases clear with
  | true => exact hi (by simp [hc])
  | false => exact .mustBeZero (by simp [hc])

/-- A command word decodes as its `OP` and its must-be-zero bits say. -/
theorem decode_command (w : Word32) : DecodesTo w (decode (.command w)) := by
  simp only [decode, decodeCommand]
  have op {n : Nat} (hn : n < 16) := opField_eq_iff w hn
  split_ifs with h0 h1 h2 h3 h4 h5 h6 h7
  · have h := (op (by decide)).mp h0
    exact whenClear_decodesTo (by rw [decide_eq_true_iff]; exact malformed_iff_rest (.inl h)) (.nop · h)
  · have h := (op (by decide)).mp h1
    exact whenClear_decodesTo (by rw [decide_eq_true_iff]; exact malformed_iff_top8 h) (.txbWr · h)
  · have h := (op (by decide)).mp h2
    exact whenClear_decodesTo (by rw [decide_eq_true_iff]; exact malformed_iff_top4 h) (.txStart · h)
  · have h := (op (by decide)).mp h3
    refine whenClear_decodesTo ?_ (.rxbRd · h)
    rw [Bool.and_eq_true, decide_eq_true_iff, decide_eq_true_iff]
    exact malformed_iff_top8_or_byte h
  · have h := (op (by decide)).mp h4
    exact whenClear_decodesTo (by rw [decide_eq_true_iff]; exact malformed_iff_rest (.inr h)) (.rxAck · h)
  · exact .reservedOp5 ((op (by decide)).mp h5)
  · exact .reservedOp6 ((op (by decide)).mp h6)
  · exact .reservedOp7 ((op (by decide)).mp h7)
  · rw [op (by decide)] at h0 h1 h2 h3 h4 h5 h6 h7
    exact .reservedOp8_15 (by omega)

/-! ## The host commands (R101 to R105), by the state that decides -/

@[simp] theorem exec_nop (s : State) : exec .nop s = .next (accept 0#8 s) := rfl

theorem exec_txbWr_idle {s : State} (idx : BitVec 12) (data : Byte) (h : s.txState = .idle) :
    exec (.txbWr idx data) s = .next (accept 0#8 (storeTx idx.toNat data s)) :=
  congrArg Host.Outcome.next (unlessSending_idle _ h)

theorem exec_txbWr_sending {s : State} (idx : BitVec 12) (data : Byte) (h : s.txState = .sending) :
    exec (.txbWr idx data) s = .next (reject s) :=
  congrArg Host.Outcome.next (unlessSending_sending _ h)

theorem exec_txStart_legal {s : State} {len : BitVec 16} (nad : Byte) (h : s.txState = .idle) (hl : len.toNat ≤ 4095) :
    exec (.txStart len nad) s = .next (accept 0#8 (startTx (loadTx len nad s))) := by
  refine congrArg Host.Outcome.next ((unlessSending_idle _ h).trans ?_)
  rw [if_neg (show ¬ Config.msgMax < len.toNat from Nat.not_lt.mpr hl)]

theorem exec_txStart_tooLong {s : State} {len : BitVec 16} (nad : Byte) (h : s.txState = .idle) (hl : 4095 < len.toNat) :
    exec (.txStart len nad) s = .next (accept 0#8 (raise .payloadTooLarge (loadTx len nad s))) := by
  refine congrArg Host.Outcome.next ((unlessSending_idle _ h).trans ?_)
  rw [if_pos (show Config.msgMax < len.toNat from hl)]

theorem exec_txStart_sending {s : State} (len : BitVec 16) (nad : Byte) (h : s.txState = .sending) :
    exec (.txStart len nad) s = .next (reject s) :=
  congrArg Host.Outcome.next (unlessSending_sending _ h)

theorem exec_rxbRd_written {s : State} {idx : BitVec 12} {b : Byte} (h : Memory.read s.rxbuf idx.toNat = some b) :
    exec (.rxbRd idx) s = .next (accept b s) := by
  simp [exec, execRxbRd, h]

theorem exec_rxbRd_unwritten {s : State} {idx : BitVec 12} (h : Memory.read s.rxbuf idx.toNat = none) :
    exec (.rxbRd idx) s = .fault .unwrittenRead := by
  simp [exec, execRxbRd, h]

theorem exec_rxAck_ended {s : State} (h : s.rxState = .complete ∨ s.rxState = .failed) :
    exec .rxAck s = .next (accept 0#8 (endRead s)) := by
  simp [exec, execRxAck, h]

theorem exec_rxAck_awaiting {s : State} (h : s.rxState = .awaitFs ∨ s.rxState = .awaitCf) :
    exec .rxAck s = .next (reject s) := by
  rcases h with h | h <;> simp [exec, execRxAck, h]

/-! ## The Host's step -/

/-- Everything the Host's step with the word `w` can answer: the rejection for a word the table of R107 rejects, and for an
accepted word the meaning of the command its `OP` names. -/
inductive HostAnswer (w : Word32) (s : State) : Host.Outcome State Fault Refusal → Prop where
  | rejected (rej : rejectedWord w s) : HostAnswer w s (.next (reject s))
  | nop (acc : ¬ rejectedWord w s) (op : opOf w = 0) : HostAnswer w s (.next (accept 0#8 s))
  | txbWr (acc : ¬ rejectedWord w s) (op : opOf w = 1) (idle : s.txState = .idle) :
      HostAnswer w s (.next (accept 0#8 (storeTx (indexField w).toNat (byteField w) s)))
  | txStart (acc : ¬ rejectedWord w s) (op : opOf w = 2) (idle : s.txState = .idle)
      (legal : (lengthField w).toNat ≤ 4095) :
      HostAnswer w s (.next (accept 0#8 (startTx (loadTx (lengthField w) (byteField w) s))))
  | tooLong (acc : ¬ rejectedWord w s) (op : opOf w = 2) (idle : s.txState = .idle)
      (long : 4095 < (lengthField w).toNat) :
      HostAnswer w s (.next (accept 0#8 (raise .payloadTooLarge (loadTx (lengthField w) (byteField w) s))))
  | rxbRd (acc : ¬ rejectedWord w s) (op : opOf w = 3) (b : Byte)
      (written : Memory.read s.rxbuf (indexField w).toNat = some b) : HostAnswer w s (.next (accept b s))
  | unwritten (acc : ¬ rejectedWord w s) (op : opOf w = 3) (missing : Memory.read s.rxbuf (indexField w).toNat = none) :
      HostAnswer w s (.fault .unwrittenRead)
  | rxAck (acc : ¬ rejectedWord w s) (op : opOf w = 4) (ended : s.rxState = .complete ∨ s.rxState = .failed) :
      HostAnswer w s (.next (accept 0#8 (endRead s)))

/-- The Host's step answers by the table of rejections and by `OP`. -/
theorem hostStep_answer (w : Word32) (s : State) : HostAnswer w s (hostStep w s) := by
  have hw := decode_command w
  generalize hd : decode (.command w) = r at hw
  cases hw with
  | mustBeZero bad =>
    rw [hostStep_error s hd]
    exact .rejected (.inr (.inl bad))
  | nop wf op =>
    rw [hostStep_ok s hd, exec_nop]
    exact .nop (by simp [rejectedWord, wf, op]) op
  | txbWr wf op =>
    rw [hostStep_ok s hd]
    cases hs : s.txState with
    | idle =>
      rw [exec_txbWr_idle _ _ hs]
      exact .txbWr (by simp [rejectedWord, wf, op, hs]) op hs
    | sending =>
      rw [exec_txbWr_sending _ _ hs]
      exact .rejected (.inr (.inr (.inl ⟨hs, .inl op⟩)))
  | txStart wf op =>
    rw [hostStep_ok s hd]
    cases hs : s.txState with
    | idle =>
      have acc : ¬ rejectedWord w s := by simp [rejectedWord, wf, op, hs]
      rcases Nat.lt_or_ge 4095 (lengthField w).toNat with hl | hl
      · rw [exec_txStart_tooLong _ hs hl]
        exact .tooLong acc op hs hl
      · rw [exec_txStart_legal _ hs hl]
        exact .txStart acc op hs hl
    | sending =>
      rw [exec_txStart_sending _ _ hs]
      exact .rejected (.inr (.inr (.inl ⟨hs, .inr op⟩)))
  | rxbRd wf op =>
    rw [hostStep_ok s hd]
    have acc : ¬ rejectedWord w s := by simp [rejectedWord, wf, op]
    cases hr : Memory.read s.rxbuf (indexField w).toNat with
    | none =>
      rw [exec_rxbRd_unwritten hr]
      exact .unwritten acc op hr
    | some b =>
      rw [exec_rxbRd_written hr]
      exact .rxbRd acc op b hr
  | rxAck wf op =>
    rw [hostStep_ok s hd]
    by_cases hs : s.rxState = .awaitFs ∨ s.rxState = .awaitCf
    · rw [exec_rxAck_awaiting hs]
      exact .rejected (.inr (.inr (.inr ⟨hs, op⟩)))
    · have ended : s.rxState = .complete ∨ s.rxState = .failed := by
        rwa [← lrxReady_iff, Bool.not_eq_true, lrxReady_eq_false_iff] at hs
      rw [exec_rxAck_ended ended]
      exact .rxAck (by simp [rejectedWord, wf, op, hs]) op ended
  | reservedOp5 op =>
    rw [hostStep_ok s hd]
    exact .rejected (.inl (by omega))
  | reservedOp6 op =>
    rw [hostStep_ok s hd]
    exact .rejected (.inl (by omega))
  | reservedOp7 op =>
    rw [hostStep_ok s hd]
    exact .rejected (.inl (by omega))
  | reservedOp8_15 op =>
    rw [hostStep_ok s hd]
    exact .rejected (.inl (by omega))

/-- What the response registers hold after the Host's step with the word `w` (R36). -/
theorem hostStep_response {w : Word32} {s t : State} (h : hostStep w s = .next t) :
    (rejectedWord w s ∧ t.rspOk = false ∧ t.rspData = 0#8) ∨
    (¬ rejectedWord w s ∧ t.rspOk = true ∧ opOf w = 3 ∧ Memory.read s.rxbuf (indexField w).toNat = some t.rspData) ∨
    (¬ rejectedWord w s ∧ t.rspOk = true ∧ opOf w ≠ 3 ∧ t.rspData = 0#8) := by
  have ha := hostStep_answer w s
  rw [h] at ha
  cases ha with
  | rejected rej => exact .inl ⟨rej, rfl, rfl⟩
  | rxbRd acc op b written => exact .inr (.inl ⟨acc, rfl, op, written⟩)
  | nop acc op => exact .inr (.inr ⟨acc, rfl, by omega, rfl⟩)
  | txbWr acc op idle => exact .inr (.inr ⟨acc, rfl, by omega, rfl⟩)
  | txStart acc op idle legal => exact .inr (.inr ⟨acc, rfl, by omega, rfl⟩)
  | tooLong acc op idle long => exact .inr (.inr ⟨acc, rfl, by omega, rfl⟩)
  | rxAck acc op ended => exact .inr (.inr ⟨acc, rfl, by omega, rfl⟩)

end Sys2Proof.Machine

/-! The status words as numbers and their fields (spec/10_state.md R37 to R39). -/

namespace Sys2Proof.Machine

theorem status0_toNat (s : State) :
    (status0 s).toNat = (txStateCode s.txState).toNat + 2 ^ 1 * (BitVec.ofBool s.txDone).toNat +
      2 ^ 2 * (errCode s.txErr).toNat + 2 ^ 4 * (rxStateCode s.rxState).toNat + 2 ^ 6 * (errCode s.rxErr).toNat +
      2 ^ 8 * s.rxSeq.toNat + 2 ^ 12 * s.rxTotal.toNat := by
  show (0#8 ++ s.rxTotal ++ s.rxSeq ++ errCode s.rxErr ++ rxStateCode s.rxState ++ errCode s.txErr ++
    BitVec.ofBool s.txDone ++ txStateCode s.txState).toNat = _
  simp only [toNat_append_eq, BitVec.toNat_ofNat]
  omega

theorem status1_toNat (s : State) : (status1 s).toNat = s.rxRemaining.toNat + 2 ^ 12 * s.txFrame.toNat := by
  show (0#10 ++ s.txFrame ++ s.rxRemaining).toNat = _
  simp only [toNat_append_eq, BitVec.toNat_ofNat]
  omega

theorem status2_toNat (s : State) : (status2 s).toNat = s.txLen.toNat + 2 ^ 16 * s.txNad.toNat := by
  show (0#8 ++ s.txNad ++ s.txLen).toNat = _
  simp only [toNat_append_eq, BitVec.toNat_ofNat]
  omega

/-- The fields of `status0` (R37). -/
theorem status0_fields (s : State) :
    (status0 s).extractLsb' 0 1 = txStateCode s.txState ∧ (status0 s).extractLsb' 1 1 = BitVec.ofBool s.txDone ∧
    (status0 s).extractLsb' 2 2 = errCode s.txErr ∧ (status0 s).extractLsb' 4 2 = rxStateCode s.rxState ∧
    (status0 s).extractLsb' 6 2 = errCode s.rxErr ∧ (status0 s).extractLsb' 8 4 = s.rxSeq ∧
    (status0 s).extractLsb' 12 12 = s.rxTotal ∧ (status0 s).extractLsb' 24 8 = 0#8 := by
  refine ⟨?_, ?_, ?_, ?_, ?_, ?_, ?_, ?_⟩ <;>
  · apply extract_eq_of_toNat
    simp only [status0_toNat, BitVec.toNat_ofNat]
    omega

/-- The fields of `status1` (R38). -/
theorem status1_fields (s : State) :
    (status1 s).extractLsb' 0 12 = s.rxRemaining ∧ (status1 s).extractLsb' 12 10 = s.txFrame ∧
    (status1 s).extractLsb' 22 10 = 0#10 := by
  refine ⟨?_, ?_, ?_⟩ <;>
  · apply extract_eq_of_toNat
    simp only [status1_toNat, BitVec.toNat_ofNat]
    omega

/-- The fields of `status2` (R39). -/
theorem status2_fields (s : State) :
    (status2 s).extractLsb' 0 16 = s.txLen ∧ (status2 s).extractLsb' 16 8 = s.txNad ∧
    (status2 s).extractLsb' 24 8 = 0#8 := by
  refine ⟨?_, ?_, ?_⟩ <;>
  · apply extract_eq_of_toNat
    simp only [status2_toNat, BitVec.toNat_ofNat]
    omega

end Sys2Proof.Machine

/-! The obligations on the response registers and the status words. -/

namespace Sys2Proof.Proofs

open Sys2Proof.Machine

/-- Settles O21: a step with a command word is the Host's step, whose answer is known by rejection and by `OP`. -/
theorem hostStepsAnswer : Obligations.HostStepsAnswer := by
  refine ⟨fun s t w rest hi h => ?_, reset_rspOk, reset_rspData⟩
  rw [step_cons hi] at h
  have hr := hostStep_response (s := { s with inputs := rest }) h
  rw [indexField_toNat] at hr
  rcases hr with ⟨rej, ok, data⟩ | ⟨acc, ok, op, data⟩ | ⟨acc, ok, op, data⟩
  · exact ⟨fun _ => ⟨ok, data⟩, (absurd rej ·), fun acc => absurd rej acc, fun acc => absurd rej acc⟩
  · exact ⟨(absurd · acc), fun _ => ok, fun _ _ => data, fun _ ne => absurd op ne⟩
  · exact ⟨(absurd · acc), fun _ => ok, fun _ eq => absurd eq op, fun _ _ => data⟩

/-- Settles O46: the fields of each word by its value as a number, the codes and the reset words by evaluation. -/
theorem statusWordsShowRegisters : Obligations.StatusWordsShowRegisters := by
  refine ⟨fun s => ?_, ⟨rfl, rfl⟩, ⟨rfl, rfl, rfl, rfl⟩, ⟨rfl, rfl, rfl, rfl⟩, by decide, by decide, by decide⟩
  obtain ⟨txState, txDone, txErr, rxState, rxErr, rxSeq, rxTotal, zero0⟩ := status0_fields s
  obtain ⟨rxRemaining, txFrame, zero1⟩ := status1_fields s
  exact ⟨txState, txDone, txErr, rxState, rxErr, rxSeq, rxTotal, zero0, rxRemaining, txFrame, zero1, status2_fields s⟩

end Sys2Proof.Proofs

/-! What a rejection is: the answer of the Host's step, and of the whole step, to a word the table of R107 rejects. -/

namespace Sys2Proof.Machine

/-- Of the Host's answers only the rejection is open to a rejected word. -/
theorem hostStep_of_rejectedWord {w : Word32} {s : State} (rej : rejectedWord w s) : hostStep w s = .next (reject s) := by
  have ha := hostStep_answer w s
  generalize hostStep w s = r at ha ⊢
  cases ha with
  | rejected => rfl
  | nop acc | txbWr acc | txStart acc | tooLong acc | rxbRd acc | unwritten acc | rxAck acc => exact absurd rej acc

/-- A step with a rejected word takes the input and writes the response of a rejection, nothing else (R100, R107). -/
theorem step_of_rejectedWord {s : State} {w : Word32} {rest : List Input} (hi : s.inputs = .command w :: rest)
    (rej : rejectedWord w s) : step s = .next { s with inputs := rest, rspOk := false, rspData := 0#8 } :=
  (step_cons hi).trans (hostStep_of_rejectedWord (s := { s with inputs := rest }) rej)

end Sys2Proof.Machine

/-! The obligations on the words the encoding shuts out. -/

namespace Sys2Proof.Proofs

open Sys2Proof.Machine

/-- Settles O4: the table of rejections has a malformed word in every state. -/
theorem malformedWordIsRejected : Obligations.MalformedWordIsRejected :=
  fun _ _ _ hi bad => step_of_rejectedWord hi (.inr (.inl bad))

/-- Settles O5: the table of rejections has a word with a reserved `OP` in every state. -/
theorem reservedWordIsRejected : Obligations.ReservedWordIsRejected :=
  fun _ _ _ hi reserved => step_of_rejectedWord hi (.inl reserved)

end Sys2Proof.Proofs

/-! The frames of a message, byte by byte (spec/41_framer.md R130 to R136). -/

namespace Sys2Proof.Machine

/-- A PCI byte is its type above its low nibble, joined by the `|` of R132 to R134. -/
theorem pciOf_ofNat (type : BitVec 4) {n : Nat} (hn : n < 16) :
    pciOf type (BitVec.ofNat 4 n) = BitVec.ofNat 8 (2 ^ 4 * type.toNat) ||| BitVec.ofNat 8 n := by
  apply BitVec.eq_of_toNat_eq
  have ht : 2 ^ 4 * type.toNat < 2 ^ 8 := by omega
  rw [pciOf_toNat, BitVec.toNat_or, BitVec.toNat_ofNat, BitVec.toNat_ofNat, BitVec.toNat_ofNat, Nat.mod_eq_of_lt hn,
    Nat.mod_eq_of_lt ht, Nat.mod_eq_of_lt (by omega), ← Nat.two_pow_add_eq_or_of_lt hn]

/-- The data area made of six bytes holds them in order. -/
theorem areaOf_bytes {d : List Byte} (h : d.length = 6) : (areaOf d).bytes = d :=
  match d, h with
  | [_, _, _, _, _, _], _ => rfl

/-- `Pad` gives exactly six bytes (R131). -/
theorem pad_length {d : List Byte} (h : d.length ≤ 6) : (pad d).length = 6 := by
  rw [pad, List.length_append, List.length_replicate, Config.cfData]
  omega

/-- The bytes of `EncSF` (R132). -/
theorem encSF_bytes (nad : Byte) {len : Nat} {d : List Byte} (hl : len < 16) (hd : d.length ≤ 6) :
    (encSF nad len d).bytes =
      [nad, 0x00#8 ||| BitVec.ofNat 8 len] ++ d ++ List.replicate (6 - d.length) 0xFF#8 := by
  show nad :: pciOf 0#4 (BitVec.ofNat 4 len) :: (areaOf (pad d)).bytes = _
  rw [pciOf_ofNat _ hl, areaOf_bytes (pad_length hd), List.append_assoc]
  rfl

/-- The bytes of `EncFF` (R133). -/
theorem encFF_bytes (nad : Byte) {len : Nat} {d : List Byte} (hl : len ≤ 4095) (hd : d.length = 5) :
    (encFF nad len d).bytes =
      [nad, 0x10#8 ||| BitVec.ofNat 8 (len / 256), BitVec.ofNat 8 (len % 256)] ++ d := by
  show nad :: pciOf 1#4 (BitVec.ofNat 4 (len / 256)) :: (areaOf (BitVec.ofNat 8 (len % 256) :: d)).bytes = _
  rw [pciOf_ofNat _ (by omega), areaOf_bytes (by rw [List.length_cons, hd])]
  rfl

/-- The frame of index `k` of a message, from the bytes of its slice (R135, R136). -/
theorem encodeFrames_getElem? (nad : Byte) {m : List Byte} {k : Nat} (hk : k < nframes m.length) :
    (encodeFrames nad m)[k]? = some (frameOf nad m.length k (sliceOf m k)) := by
  rw [encodeFrames, List.getElem?_map, List.getElem?_range hk]
  rfl

/-- The bytes of a message's first frame are its first bytes (R132, R133). -/
theorem sliceOf_zero (m : List Byte) : sliceOf m 0 = m.take (sliceLen m.length 0) := rfl

/-- A short message is one Single frame (R130, R135). -/
theorem encodeFrames_single (nad : Byte) {m : List Byte} (h : m.length ≤ 6) :
    encodeFrames nad m = [encSF nad m.length m] := by
  have hn : nframes m.length = 1 := if_pos h
  have hs : sliceOf m 0 = m := by
    rw [sliceOf_zero, sliceLen_eq, if_pos h, List.take_length]
  have hf : frameOf nad m.length 0 m = encSF nad m.length m := if_pos h
  rw [encodeFrames, hn, List.range_one, List.map_singleton, hs, hf]

/-- A long message opens with a First frame of its first five bytes (R133, R135). -/
theorem encodeFrames_first (nad : Byte) {m : List Byte} (h : 7 ≤ m.length) :
    (encodeFrames nad m)[0]? = some (encFF nad m.length (m.take 5)) := by
  have hl : ¬ m.length ≤ 6 := by omega
  have hn : 0 < nframes m.length := by
    rw [nframes_eq, if_neg hl]
    omega
  have hs : sliceOf m 0 = m.take 5 := by
    rw [sliceOf_zero, sliceLen_eq, if_neg hl, if_pos rfl]
  have hf : frameOf nad m.length 0 (m.take 5) = encFF nad m.length (m.take 5) := (if_neg hl).trans (if_pos rfl)
  rw [encodeFrames_getElem? nad hn, hs, hf]

/-- A legal message has at most 683 frames, so `TX_FRAME` counts them without overflow (R26, R130). -/
theorem nframes_le {len : Nat} (h : len ≤ 4095) : nframes len ≤ 683 := by
  rw [nframes_eq]
  split_ifs <;> omega

end Sys2Proof.Machine

/-! What a step can do to the transmit side while a message is being sent (spec/41_framer.md R137, R138). -/

namespace Sys2Proof.Machine

/-- While a message is being sent, no instruction changes the transmit registers or `TXBUF` (R102, R103, R208 part 3). -/
theorem Effect.sameTx_of_sending {s t : State} (h : Effect s t) (hs : s.txState = .sending) :
    sameTxRegs s t ∧ t.txbuf = s.txbuf := by
  cases h with
  | stored _ _ idle | tooLong _ _ idle | started _ _ idle => cases hs.symm.trans idle
  | rejected | answered | acknowledged | blocked | framing | sequence | single | first | appended =>
    exact ⟨⟨rfl, rfl, rfl, rfl, rfl, rfl⟩, rfl⟩

/-- Everything a step from `SENDING` can do to the transmit side: nothing, unless it is a reset or the Framer's step. -/
inductive SendingStep (s : State) : State → Prop where
  | kept {t : State} (notReady : ∀ rest, s.inputs ≠ .linkReady :: rest) (regs : sameTxRegs s t)
      (buf : t.txbuf = s.txbuf) : SendingStep s t
  | reset (e : Input) (rest : List Input) (taken : s.inputs = e :: rest) (isRst : isReset e = true) :
      SendingStep s (resetBlock { s with inputs := rest })
  | emitted (f : Frame) (rest : List Input) (taken : s.inputs = .linkReady :: rest) (due : frameDue s = true)
      (frame : frameK s.txNad s.txbuf s.txLen.toNat s.txFrame.toNat = some f) :
      SendingStep s (emitFrame (packFrame f) { s with inputs := rest })

/-- A step from `SENDING`, by the input it takes. -/
theorem step_of_sending {s t : State} (hs : s.txState = .sending) (h : step s = .next t) : SendingStep s t := by
  have same : sameTxRegs s s := ⟨rfl, rfl, rfl, rfl, rfl, rfl⟩
  rcases step_next_cases h with ⟨hi, rfl⟩ | ⟨e, rest, hi, hr | hc | hidle | hf | hw | ho⟩
  · exact .kept (by simp [hi]) same rfl
  · obtain ⟨isRst, rfl⟩ := hr
    exact .reset e rest hi isRst
  · obtain ⟨w, rfl, -, eff⟩ := hc
    obtain ⟨regs, buf⟩ := eff.sameTx_of_sending hs
    exact .kept (by simp [hi]) regs buf
  · obtain ⟨-, idle, -⟩ := hidle
    cases hs.symm.trans idle
  · obtain ⟨f, rfl, -, due, frame, rfl⟩ := hf
    exact .emitted f rest hi due frame
  · obtain ⟨rfl, -, rfl⟩ := hw
    exact .kept (by simp [hi]) same rfl
  · obtain ⟨p, later, rfl, -, -, -, eff⟩ := ho
    obtain ⟨regs, buf⟩ := eff.sameTx_of_sending hs
    exact .kept (by simp [hi]) regs buf

/-- The acceptance of the last frame ends the message, with every frame counted (R138). -/
theorem emitFrame_last {s : State} (p : PortFrame) (due : frameDue s = true)
    (last : s.txFrame.toNat + 1 = nframes s.txLen.toNat) :
    (emitFrame p s).txState = .idle ∧ (emitFrame p s).txDone = true ∧
      (emitFrame p s).txFrame.toNat = nframes s.txLen.toNat := by
  obtain ⟨legal, -⟩ := (frameDue_iff s).mp due
  have hn := nframes_le legal
  refine ⟨by rw [emitFrame_txState, if_pos last], by rw [emitFrame_txDone, if_pos last], ?_⟩
  rw [emitFrame_txFrame, BitVec.toNat_add, BitVec.toNat_ofNat]
  omega

/-- The acceptance of a frame ends the message only if it is the last one (R137, R138). -/
theorem last_of_emitFrame_idle {s : State} {p : PortFrame} (hs : s.txState = .sending)
    (idle : (emitFrame p s).txState = .idle) : s.txFrame.toNat + 1 = nframes s.txLen.toNat := by
  by_contra more
  rw [emitFrame_txState, if_neg more, hs] at idle
  cases idle

end Sys2Proof.Machine

/-! The obligations on the Framer. -/

namespace Sys2Proof.Proofs

open Sys2Proof.Machine

/-- Settles O26: a short message is `EncSF` of itself, a long one opens with `EncFF` of its first five bytes. -/
theorem singleAndFirstFrameBytes : Obligations.SingleAndFirstFrameBytes := by
  refine fun nad m => ⟨fun short => ?_, fun long legal => ?_⟩
  · rw [encodeFrames_single nad short, List.map_singleton, encSF_bytes nad (by omega) short]
  · have five : (m.take 5).length = 5 := List.length_take_of_le (by omega)
    rw [encodeFrames_first nad long, Option.map_some, encFF_bytes nad legal five]

/-- Settles O31: of the steps from `SENDING`, one that keeps the transmit registers stays there, one that emits a frame
leaves exactly at the last, and a reset leaves always. -/
theorem onlyLastFrameOrResetEndsMessage : Obligations.OnlyLastFrameOrResetEndsMessage := by
  intro s t hs h
  cases step_of_sending hs h with
  | kept notReady regs buf =>
    obtain ⟨txState, -⟩ := regs
    refine ⟨fun ⟨rest, ready⟩ => absurd ready (notReady rest), fun idle => ?_⟩
    rw [txState, hs] at idle
    cases idle
  | reset e rest taken isRst =>
    refine ⟨fun ⟨_, ready⟩ => ?_, fun _ => .inl ⟨e, rest, taken, isRst⟩⟩
    obtain ⟨rfl, -⟩ := List.cons.inj (taken.symm.trans ready)
    cases isRst
  | emitted f rest taken due frame =>
    exact ⟨fun _ last => emitFrame_last (s := { s with inputs := rest }) _ due last,
      fun idle => .inr ⟨⟨rest, taken⟩, last_of_emitFrame_idle (s := { s with inputs := rest }) hs idle⟩⟩

end Sys2Proof.Proofs

/-! What the Reassembler does with a frame, by the state that decides (spec/42_reassembler.md R163 to R170). -/

namespace Sys2Proof.Machine

/-! ## The rest of the block -/

/-- Writes of the receive registers and of `RXBUF` leave the transmit side, the responses and the environment as before. -/
theorem receive_frame (s : State) (rxState : RxState) (rxErr : ErrCode) (rxTotal rxRemaining : BitVec 12)
    (rxSeq : BitVec 4) (rxbuf : Memory) :
    let t : State := { s with rxState, rxErr, rxTotal, rxRemaining, rxSeq, rxbuf }
    sameTx s t ∧ sameResponse s t ∧ sameEnv s t :=
  ⟨⟨⟨rfl, rfl, rfl, rfl, rfl, rfl⟩, fun _ => rfl⟩, ⟨rfl, rfl⟩, ⟨rfl, rfl, rfl⟩⟩

/-! ## The bytes of a data area (R160) -/

theorem unpad_getElem? (d : DataArea) {n i : Nat} (h : i < n) : (unpad d n)[i]? = d.bytes[i]? :=
  List.getElem?_take_of_lt h

/-- The significant bytes are all that `Unpad` reads. -/
theorem unpad_congr {d e : DataArea} {n : Nat} (h : ∀ j < n, d.bytes[j]? = e.bytes[j]?) : unpad d n = unpad e n := by
  apply List.ext_getElem?
  intro j
  by_cases hj : j < n
  · rw [unpad_getElem? d hj, unpad_getElem? e hj, h j hj]
  · rw [unpad, unpad, List.getElem?_take_eq_none (by omega), List.getElem?_take_eq_none (by omega)]

/-- A data area is its six bytes. -/
theorem bytes_injective {d e : DataArea} (h : d.bytes = e.bytes) : d = e := by
  obtain ⟨_, _, _, _, _, _⟩ := d
  obtain ⟨_, _, _, _, _, _⟩ := e
  simpa [DataArea.bytes] using h

/-- A message's first bytes are written from cell 0 on (R165, R167). -/
theorem Memory.read_writeList_zero (m : Memory) (vs : List Byte) (i : Nat) :
    Memory.read (Memory.writeList m 0 vs) i = if i < vs.length then vs[i]? else Memory.read m i := by
  rw [Memory.read_writeList]
  simp

/-! ## Frames in `AWAIT_FS` (R165 to R170) -/

theorem exec_sf_legal {s : State} {dl : BitVec 4} (nad : Byte) (d : DataArea) (h : s.rxState = .awaitFs)
    (hl : dl.toNat ≤ 6) :
    exec (.sf nad dl d) s = .next (completeSingle (dl.setWidth 12) (storeRx 0 (unpad d dl.toNat) s)) :=
  (byRxState_awaitFs _ _ h).trans (if_pos ((legalSingle_iff dl).mpr hl))

theorem exec_sf_tooLong {s : State} {dl : BitVec 4} (nad : Byte) (d : DataArea) (h : s.rxState = .awaitFs)
    (hl : 7 ≤ dl.toNat) : exec (.sf nad dl d) s = .next (raise .framing s) :=
  (byRxState_awaitFs _ _ h).trans (if_neg (by rw [legalSingle_iff]; omega))

theorem exec_ff_legal {s : State} {dl : BitVec 12} (nad : Byte) (d : FirstData) (h : s.rxState = .awaitFs)
    (hl : 7 ≤ dl.toNat) : exec (.ff nad dl d) s = .next (openMessage dl (storeRx 0 d.bytes s)) :=
  (byRxState_awaitFs _ _ h).trans (if_pos ((legalFirst_iff dl).mpr hl))

theorem exec_ff_tooShort {s : State} {dl : BitVec 12} (nad : Byte) (d : FirstData) (h : s.rxState = .awaitFs)
    (hl : dl.toNat < 7) : exec (.ff nad dl d) s = .next (raise .framing s) :=
  (byRxState_awaitFs _ _ h).trans (if_neg (by rw [legalFirst_iff]; omega))

theorem exec_cf_awaitFs {s : State} (nad : Byte) (sn : BitVec 4) (d : DataArea) (h : s.rxState = .awaitFs) :
    exec (.cf nad sn d) s = .next (raise .framing s) :=
  byRxState_awaitFs _ _ h

/-! ## Frames of a reserved type, wherever frames are consumed (R170, R173) -/

theorem byRxState_framingError {s : State} (h : s.rxState = .awaitFs ∨ s.rxState = .awaitCf) :
    byRxState framingError framingError s = .next (raise .framing s) := by
  rcases h with h | h
  · exact byRxState_awaitFs _ _ h
  · exact byRxState_awaitCf _ _ h

theorem exec_reservedType3_awaiting {s : State} (nad : Byte) (lo : BitVec 4) (d : DataArea)
    (h : s.rxState = .awaitFs ∨ s.rxState = .awaitCf) :
    exec (.reservedType3 nad lo d) s = .next (raise .framing s) :=
  byRxState_framingError h

theorem exec_reservedType4_7_awaiting {s : State} (nad : Byte) (type lo : BitVec 4) (d : DataArea)
    (h : s.rxState = .awaitFs ∨ s.rxState = .awaitCf) :
    exec (.reservedType4_7 nad type lo d) s = .next (raise .framing s) :=
  byRxState_framingError h

theorem exec_reservedType8_F_awaiting {s : State} (nad : Byte) (type lo : BitVec 4) (d : DataArea)
    (h : s.rxState = .awaitFs ∨ s.rxState = .awaitCf) :
    exec (.reservedType8_F nad type lo d) s = .next (raise .framing s) :=
  byRxState_framingError h

end Sys2Proof.Machine

/-! What a frame put on the port can depend on: the meaning of a consumed frame, by its type alone (spec/30_encoding.md R72,
R79, spec/42_reassembler.md R160, R164). -/

namespace Sys2Proof.Machine

/-! ## The meaning of a frame, by its type -/

theorem consume_packFrame (f : Frame) (s : State) : consume (packFrame f) s = exec (decodeFrame f) s := by
  rw [consume, unpackFrame_packFrame]

theorem consume_single {f : Frame} (s : State) (h : pciType f.pci = 0#4) :
    consume (packFrame f) s = byRxState (takeSingle (pciLow f.pci) f.data) framingError s := by
  rw [consume_packFrame, decodeFrame, if_pos h]
  rfl

theorem consume_first {f : Frame} (s : State) (h : pciType f.pci = 1#4) :
    consume (packFrame f) s =
      byRxState (takeFirst (pciLow f.pci ++ f.data.b2) ⟨f.data.b3, f.data.b4, f.data.b5, f.data.b6, f.data.b7⟩)
        framingError s := by
  rw [consume_packFrame, decodeFrame, if_neg (by rw [h]; decide), if_pos h]
  rfl

theorem consume_consecutive {f : Frame} (s : State) (h : pciType f.pci = 2#4) :
    consume (packFrame f) s = byRxState framingError (takeConsecutive (pciLow f.pci) f.data) s := by
  rw [consume_packFrame, decodeFrame, if_neg (by rw [h]; decide), if_neg (by rw [h]; decide), if_pos h]
  rfl

theorem consume_reserved {f : Frame} (s : State) (h0 : pciType f.pci ≠ 0#4) (h1 : pciType f.pci ≠ 1#4)
    (h2 : pciType f.pci ≠ 2#4) : consume (packFrame f) s = byRxState framingError framingError s := by
  rw [consume_packFrame, decodeFrame, if_neg h0, if_neg h1, if_neg h2]
  split_ifs <;> rfl

/-! ## What each meaning reads of the data area -/

theorem byRxState_congr {s : State} {inFs inCf inFs' inCf' : State → Host.Outcome State Fault Refusal}
    (hFs : inFs s = inFs' s) (hCf : inCf s = inCf' s) : byRxState inFs inCf s = byRxState inFs' inCf' s := by
  simp only [byRxState, hFs, hCf]

theorem takeSingle_congr {dl : BitVec 4} {d e : DataArea} (s : State) (h : unpad d dl.toNat = unpad e dl.toNat) :
    takeSingle dl d s = takeSingle dl e s := by
  rw [takeSingle, takeSingle, h]

theorem takeConsecutive_congr {d e : DataArea} {s : State} (sn : BitVec 4)
    (h : unpad d (appendLen s) = unpad e (appendLen s)) : takeConsecutive sn d s = takeConsecutive sn e s := by
  simp only [takeConsecutive, appendConsecutive, h]

/-! ## The significant bytes -/

theorem significantBytes_single {pci : Byte} (s : State) (h : pciType pci = 0#4) :
    significantBytes pci s = (pciLow pci).toNat :=
  if_pos h

theorem significantBytes_first {pci : Byte} (s : State) (h : pciType pci = 1#4) : significantBytes pci s = 6 := by
  rw [significantBytes, h]
  rfl

theorem significantBytes_consecutive {pci : Byte} (s : State) (h : pciType pci = 2#4) :
    significantBytes pci s = appendLen s := by
  rw [significantBytes, h]
  rfl

end Sys2Proof.Machine

/-! What can end a read's `COMPLETE` or `FAILED` (spec/42_reassembler.md R174, spec/40_host_commands.md R105). -/

namespace Sys2Proof.Machine

/-- The one well-formed word with the operation code of RX_ACK (R81, R84). -/
theorem eq_rxAckWord {w : Word32} (op : opOf w = 4) (wf : ¬ malformed w) : w = rxAckWord := by
  apply BitVec.eq_of_toNat_eq
  show w.toNat = 4
  unfold malformed at wf
  unfold opOf at op wf
  omega

/-- Of the Host's words only RX_ACK writes `RX_STATE`. -/
theorem hostStep_rxState {w : Word32} {s t : State} (h : hostStep w s = .next t) :
    t.rxState = s.rxState ∨ w = rxAckWord := by
  have ha := hostStep_answer w s
  rw [h] at ha
  cases ha with
  | rxAck acc op ended => exact .inr (eq_rxAckWord op fun bad => acc (.inr (.inl bad)))
  | rejected | nop | txbWr | txStart | tooLong | rxbRd => exact .inl rfl

/-- A frame offered to an ended read stays with the Link (R174). -/
theorem step_offer_of_ended {s : State} {rest : List Input} (ended : s.rxState = .complete ∨ s.rxState = .failed)
    (hi : s.inputs = .linkOffer :: rest) : step s = .next { s with inputs := rest } :=
  (step_cons hi).trans (offerStep_blocked (s := { s with inputs := rest }) ((lrxReady_eq_false_iff s).mpr ended))

/-- A step of an ended read keeps `RX_STATE`, unless it is a reset or an RX_ACK (R174). -/
theorem step_rxState_of_ended {s t : State} (ended : s.rxState = .complete ∨ s.rxState = .failed)
    (h : step s = .next t) :
    t.rxState = s.rxState ∨ ∃ e rest, s.inputs = e :: rest ∧ (isReset e = true ∨ e = .command rxAckWord) := by
  rcases step_next_cases h with ⟨-, rfl⟩ | ⟨e, rest, hi, hr | hc | hidle | hf | hw | ho⟩
  · exact .inl rfl
  · obtain ⟨isRst, -⟩ := hr
    exact .inr ⟨e, rest, hi, .inl isRst⟩
  · obtain ⟨w, rfl, hw, -⟩ := hc
    rcases hostStep_rxState hw with same | rfl
    · exact .inl same
    · exact .inr ⟨_, rest, hi, .inr rfl⟩
  · obtain ⟨-, -, rfl⟩ := hidle
    exact .inl rfl
  · obtain ⟨f, -, -, -, -, rfl⟩ := hf
    exact .inl (emitFrame_rxState _ _)
  · obtain ⟨-, -, rfl⟩ := hw
    exact .inl rfl
  · obtain ⟨p, later, -, -, ready, -⟩ := ho
    rw [(lrxReady_eq_false_iff s).mpr ended] at ready
    cases ready

end Sys2Proof.Machine

/-! The obligations on the Reassembler's states and on the frames it takes in `AWAIT_FS`. -/

namespace Sys2Proof.Proofs

open Sys2Proof.Machine

/-- Settles O12: an ended read is not ready for a frame, and of all steps only a reset and an RX_ACK write `RX_STATE`. -/
theorem endedReadConsumesNothing : Obligations.EndedReadConsumesNothing :=
  ⟨fun s _ ended hi => ⟨(lrxReady_eq_false_iff s).mpr ended, step_offer_of_ended ended hi⟩,
    fun _ _ ended h changed => (step_rxState_of_ended ended h).resolve_left changed⟩

/-- Settles O40: by the type, which the frames share; the meaning it selects reads the significant bytes and no address. -/
theorem addressAndPaddingDoNotMatter : Obligations.AddressAndPaddingDoNotMatter := by
  intro s f g hpci agree
  by_cases h0 : pciType f.pci = 0#4
  · rw [significantBytes_single s h0] at agree
    rw [consume_single s h0, consume_single s (hpci ▸ h0), ← hpci]
    exact byRxState_congr (takeSingle_congr s (unpad_congr agree)) rfl
  by_cases h1 : pciType f.pci = 1#4
  · rw [significantBytes_first s h1] at agree
    have same : f.data = g.data := bytes_injective (unpad_congr agree)
    rw [consume_first s h1, consume_first s (hpci ▸ h1), ← hpci, same]
  by_cases h2 : pciType f.pci = 2#4
  · rw [significantBytes_consecutive s h2] at agree
    rw [consume_consecutive s h2, consume_consecutive s (hpci ▸ h2), ← hpci]
    exact byRxState_congr rfl (takeConsecutive_congr _ (unpad_congr agree))
  · rw [consume_reserved s h0 h1 h2, consume_reserved s (hpci ▸ h0) (hpci ▸ h1) (hpci ▸ h2)]

/-- Settles O34: the registers by computation, the cells by a read after the writes of the message bytes from cell 0 on. -/
theorem legalSingleFrameCompletesRead : Obligations.LegalSingleFrameCompletesRead := by
  intro s nad dl d await legal
  refine ⟨_, exec_sf_legal nad d await legal, rfl, ?_, rfl, rfl, rfl, fun i => ?_, receive_frame s _ _ _ _ _ _⟩
  · rw [completeSingle_rxTotal, BitVec.toNat_setWidth]
    omega
  · have length : (unpad d dl.toNat).length = dl.toNat := by rw [unpad_length, Nat.min_eq_left legal]
    rw [completeSingle_rxbuf, storeRx_rxbuf, Memory.read_writeList_zero, length]
    split_ifs with inside
    · exact unpad_getElem? d inside
    · rfl

/-- Settles O35: the registers by computation, the count left without borrow, the cells by a read after the five writes. -/
theorem legalFirstFrameOpensMessage : Obligations.LegalFirstFrameOpensMessage := by
  intro s nad dl d await legal
  refine ⟨_, exec_ff_legal nad d await legal, rfl, rfl, ?_, rfl, rfl, fun i => ?_, receive_frame s _ _ _ _ _ _⟩
  · show (dl - 5#12).toNat = dl.toNat - 5
    exact BitVec.toNat_sub_of_le (show 5 ≤ dl.toNat by omega)
  · rw [openMessage_rxbuf, storeRx_rxbuf, Memory.read_writeList_zero, firstBytes_length]

/-- Settles O36: each of the frames raises the framing error, which writes `RX_STATE` and `RX_ERR` alone. -/
theorem otherFramesFailWhileAwaitingFirst : Obligations.OtherFramesFailWhileAwaitingFirst := by
  intro s nad dl sn lo type fdl d fd await
  exact ⟨exec_sf_tooLong nad d await, exec_ff_tooShort nad fd await, exec_cf_awaitFs nad sn d await,
    exec_reservedType3_awaiting nad lo d (.inl await), exec_reservedType4_7_awaiting nad type lo d (.inl await),
    exec_reservedType8_F_awaiting nad type lo d (.inl await)⟩

end Sys2Proof.Proofs

/-! How an error comes about and what can end it: the sequence error of an open message, an accepted TX_START, RX_ACK and
reset (spec/60_exceptions.md R201, R203, R208, R211). -/

namespace Sys2Proof.Machine

/-! ## A Consecutive frame out of order (R172, R203) -/

theorem exec_cf_wrongSequence {s : State} {sn : BitVec 4} (nad : Byte) (d : DataArea) (h : s.rxState = .awaitCf)
    (wrong : sn ≠ s.rxSeq) : exec (.cf nad sn d) s = .next (raise .sequence s) :=
  (byRxState_awaitCf _ _ h).trans (if_neg wrong)

/-! ## Frames and the transmit side -/

/-- A meaning of a frame leaves the transmit side as it was in the state `s`. -/
def KeepsTx (act : State → Host.Outcome State Fault Refusal) (s : State) : Prop := ∀ t, act s = .next t → sameTx s t

theorem framingError_keepsTx (s : State) : KeepsTx framingError s := by
  rintro _ ⟨⟩
  exact (receive_frame s _ _ _ _ _ _).1

theorem takeSingle_keepsTx (dl : BitVec 4) (d : DataArea) (s : State) : KeepsTx (takeSingle dl d) s := by
  intro t h
  rw [takeSingle] at h
  split_ifs at h
  · cases h
    exact (receive_frame s _ _ _ _ _ _).1
  · exact framingError_keepsTx s t h

theorem takeFirst_keepsTx (dl : BitVec 12) (d : FirstData) (s : State) : KeepsTx (takeFirst dl d) s := by
  intro t h
  rw [takeFirst] at h
  split_ifs at h
  · cases h
    exact (receive_frame s _ _ _ _ _ _).1
  · exact framingError_keepsTx s t h

theorem takeConsecutive_keepsTx (sn : BitVec 4) (d : DataArea) (s : State) : KeepsTx (takeConsecutive sn d) s := by
  intro t h
  rw [takeConsecutive, appendConsecutive] at h
  split_ifs at h
  · cases h
    exact (receive_frame s _ _ _ _ _ _).1
  · cases h
    exact (receive_frame s _ _ _ _ _ _).1

theorem byRxState_keepsTx {inFs inCf : State → Host.Outcome State Fault Refusal} {s : State} (hFs : KeepsTx inFs s)
    (hCf : KeepsTx inCf s) : KeepsTx (byRxState inFs inCf) s := by
  intro t h
  by_cases ended : s.rxState = .complete ∨ s.rxState = .failed
  · rw [byRxState_ended _ _ ended] at h
    cases h
    exact (receive_frame s _ _ _ _ _ _).1
  · rw [← lrxReady_eq_false_iff, Bool.not_eq_false, lrxReady_iff] at ended
    rcases ended with hs | hs
    · exact hFs t (by rwa [byRxState_awaitFs _ _ hs] at h)
    · exact hCf t (by rwa [byRxState_awaitCf _ _ hs] at h)

/-- No frame changes the transmit side, whatever its type (R164 to R173). -/
theorem consume_keepsTx (p : PortFrame) (s : State) : KeepsTx (consume p) s := by
  intro t h
  have hf : consume (packFrame (unpackFrame p)) s = .next t := by rwa [consume_packFrame]
  have bad := framingError_keepsTx s
  by_cases h0 : pciType (unpackFrame p).pci = 0#4
  · exact byRxState_keepsTx (takeSingle_keepsTx _ _ s) bad t ((consume_single s h0).symm.trans hf)
  by_cases h1 : pciType (unpackFrame p).pci = 1#4
  · exact byRxState_keepsTx (takeFirst_keepsTx _ _ s) bad t ((consume_first s h1).symm.trans hf)
  by_cases h2 : pciType (unpackFrame p).pci = 2#4
  · exact byRxState_keepsTx bad (takeConsecutive_keepsTx _ _ s) t ((consume_consecutive s h2).symm.trans hf)
  · exact byRxState_keepsTx bad bad t ((consume_reserved s h0 h1 h2).symm.trans hf)

/-! ## TX_START (R103, R201) -/

theorem ltxValid_of_idle {s : State} (h : s.txState = .idle) : ltxValid s = false := by
  simp [ltxValid, h]

/-- The Host's step with an accepted TX_START completes, and the word's length alone decides `TX_ERR`. -/
theorem hostStep_txStart_accepted {w : Word32} {s : State} (op : opOf w = 2) (acc : ¬ rejectedWord w s) :
    ∃ t, hostStep w s = .next t ∧ t.rspOk = true ∧
      t.txErr = if 4095 < w.toNat / 4096 % 65536 then .payloadTooLarge else .none := by
  have ha := hostStep_answer w s
  rw [← lengthField_toNat]
  generalize hostStep w s = r at ha ⊢
  cases ha with
  | txStart _ _ _ legal => exact ⟨_, rfl, rfl, (if_neg (Nat.not_lt.mpr legal)).symm⟩
  | tooLong _ _ _ long => exact ⟨_, rfl, rfl, (if_pos long).symm⟩
  | rejected rej => exact absurd rej acc
  | nop _ other | txbWr _ other | rxbRd _ other | unwritten _ other | rxAck _ other => omega

/-- The whole step with an accepted TX_START. -/
theorem step_txStart_accepted {s : State} {w : Word32} {rest : List Input} (hi : s.inputs = .command w :: rest)
    (op : opOf w = 2) (acc : ¬ rejectedWord w s) :
    ∃ t, step s = .next t ∧ t.rspOk = true ∧
      t.txErr = if 4095 < w.toNat / 4096 % 65536 then .payloadTooLarge else .none := by
  rw [step_cons hi]
  exact hostStep_txStart_accepted (s := { s with inputs := rest }) op acc

/-- Of the Host's words only an accepted TX_START writes `TX_ERR`. -/
theorem hostStep_txErr {w : Word32} {s t : State} (h : hostStep w s = .next t) :
    t.txErr = s.txErr ∨ (opOf w = 2 ∧ ¬ rejectedWord w s) := by
  have ha := hostStep_answer w s
  rw [h] at ha
  cases ha with
  | txStart acc op | tooLong acc op => exact .inr ⟨op, acc⟩
  | rejected | nop | txbWr | rxbRd | rxAck => exact .inl rfl

/-- A step keeps `TX_ERR`, unless it is a reset or an accepted TX_START (R211). -/
theorem step_txErr {s t : State} (h : step s = .next t) :
    t.txErr = s.txErr ∨ ∃ e rest, s.inputs = e :: rest ∧
      (isReset e = true ∨ ∃ w, e = .command w ∧ opOf w = 2 ∧ ¬ rejectedWord w s) := by
  rcases step_next_cases h with ⟨-, rfl⟩ | ⟨e, rest, hi, hr | hc | hidle | hf | hw | ho⟩
  · exact .inl rfl
  · obtain ⟨isRst, -⟩ := hr
    exact .inr ⟨e, rest, hi, .inl isRst⟩
  · obtain ⟨w, rfl, hw, -⟩ := hc
    rcases hostStep_txErr hw with same | ⟨op, acc⟩
    · exact .inl same
    · exact .inr ⟨_, rest, hi, .inr ⟨w, rfl, op, acc⟩⟩
  · obtain ⟨-, -, rfl⟩ := hidle
    exact .inl rfl
  · obtain ⟨f, -, -, -, -, rfl⟩ := hf
    exact .inl (emitFrame_txErr _ _)
  · obtain ⟨-, -, rfl⟩ := hw
    exact .inl rfl
  · obtain ⟨p, later, -, -, -, hp, -⟩ := ho
    obtain ⟨⟨-, txErr, -⟩, -⟩ := consume_keepsTx p _ t hp
    exact .inl txErr

/-! ## RX_ACK and reset (R105, R230) -/

theorem decode_rxAckWord : decode (.command rxAckWord) = .ok .rxAck := rfl

/-- The step with RX_ACK after an ended read. -/
theorem step_rxAck_of_ended {s : State} {rest : List Input} (ended : s.rxState = .complete ∨ s.rxState = .failed)
    (hi : s.inputs = .command rxAckWord :: rest) :
    step s = .next (accept 0#8 (endRead { s with inputs := rest })) :=
  calc step s
    _ = hostStep rxAckWord { s with inputs := rest } := step_cons hi
    _ = exec .rxAck { s with inputs := rest } := hostStep_ok _ decode_rxAckWord
    _ = .next (accept 0#8 (endRead { s with inputs := rest })) := exec_rxAck_ended ended

theorem step_reset {s : State} {e : Input} {rest : List Input} (hi : s.inputs = e :: rest) (isRst : isReset e = true) :
    step s = .next (resetBlock { s with inputs := rest }) := by
  rw [step_cons hi]
  cases e with
  | reset => rfl
  | command | linkReady | linkOffer => cases isRst

end Sys2Proof.Machine

/-! The obligations on errors: how they are checked for, what they record, and how they are left. -/

namespace Sys2Proof.Proofs

open Sys2Proof.Machine

/-- Settles O38: the sequence error writes `RX_STATE` and `RX_ERR` alone. -/
theorem wrongSequenceNumberFailsRead : Obligations.WrongSequenceNumberFailsRead :=
  fun _ nad _ d await wrong => exec_cf_wrongSequence nad d await wrong

/-- Settles O17: the registers by computation; the state reached is `IDLE` again, so that it offers no frame and a retry
meets the same check. -/
theorem oversizeStartRecordsPayloadTooLarge : Obligations.OversizeStartRecordsPayloadTooLarge := by
  intro s len nad idle long
  have start {u : State} (hu : u.txState = .idle) := exec_txStart_tooLong nad hu long
  exact ⟨_, start idle, rfl, rfl, idle, rfl, rfl, rfl, rfl, rfl, ltxValid_of_idle idle, fun _ => rfl,
    ⟨⟨rfl, rfl, rfl, rfl, rfl⟩, fun _ => rfl⟩, ⟨rfl, rfl, rfl⟩, _, start idle, rfl, idle⟩

/-- Settles O23: the first three checks are rows of the table of rejections; a TX_START that passes them is accepted, and
then its length decides. -/
theorem commandChecksInOrder : Obligations.CommandChecksInOrder := by
  intro s w rest hi
  refine ⟨fun bad => ?_, fun _ op sending => ?_, fun _ op await => ?_, fun wf op idle => ?_⟩
  · exact step_of_rejectedWord hi (bad.imp_right .inl)
  · exact step_of_rejectedWord hi (.inr (.inr (.inl ⟨sending, op⟩)))
  · exact step_of_rejectedWord hi (.inr (.inr (.inr ⟨await, op⟩)))
  · have acc : ¬ rejectedWord w s := by simp [rejectedWord, wf, op, idle]
    exact step_txStart_accepted hi op acc

/-- Settles O51: which steps write `RX_STATE` in `FAILED` and which write `TX_ERR` at all, and what each of these steps
(RX_ACK, an accepted TX_START, a reset) leaves there. -/
theorem errorsAreLeftOnlyAsStated : Obligations.ErrorsAreLeftOnlyAsStated := by
  refine ⟨fun s t failed h left => ?_, fun s t tooLarge h left => ?_, fun s rest failed hi => ?_,
    fun s w rest hi op acc => step_txStart_accepted hi op acc, fun s t ⟨e, rest, hi, isRst⟩ h => ?_⟩
  · rw [← failed] at left
    obtain ⟨e, rest, hi, isRst | rfl⟩ := (step_rxState_of_ended (.inr failed) h).resolve_left left
    · exact ⟨e, rest, hi, .inl isRst⟩
    · cases h.symm.trans (step_rxAck_of_ended (.inr failed) hi)
      exact ⟨_, rest, hi, .inr ⟨rfl, rfl, rfl, rfl⟩⟩
  · obtain ⟨e, rest, hi, isRst | ⟨w, rfl, op, acc⟩⟩ := (step_txErr h).resolve_left (tooLarge ▸ left)
    · exact ⟨e, rest, hi, .inl isRst⟩
    · obtain ⟨u, hu, ok, byLength⟩ := step_txStart_accepted hi op acc
      cases h.symm.trans hu
      have legal : ¬ 4095 < w.toNat / 4096 % 65536 := fun long => left (byLength.trans (if_pos long))
      exact ⟨_, rest, hi, .inr ⟨w, rfl, op, acc, ok, byLength.trans (if_neg legal)⟩⟩
  · exact ⟨_, step_rxAck_of_ended (.inr failed) hi, rfl, rfl, rfl⟩
  · cases h.symm.trans (step_reset hi isRst)
    exact ⟨rfl, rfl, rfl⟩

end Sys2Proof.Proofs

/-! What a run of steps keeps, and what can end the wait for a frame or for an acceptance
(spec/70_reset_and_hazards.md R230, R238). -/

namespace Sys2Proof.Machine

/-! ## The inputs a run takes -/

/-- No instruction takes or adds an input. -/
theorem Effect.inputs {s t : State} (h : Effect s t) : t.inputs = s.inputs := by
  cases h <;> rfl

/-- A step takes one input event, if there is one. -/
theorem step_inputs {s t : State} (h : step s = .next t) : t.inputs = s.inputs.tail := by
  rcases step_next_cases h with ⟨hi, rfl⟩ | ⟨e, rest, hi, hr | hc | hidle | hf | hw | ho⟩
  · rw [hi, List.tail_nil]
  all_goals rw [hi, List.tail_cons]
  · obtain ⟨-, rfl⟩ := hr
    rfl
  · obtain ⟨w, -, -, eff⟩ := hc
    exact eff.inputs
  · obtain ⟨-, -, rfl⟩ := hidle
    rfl
  · obtain ⟨f, -, -, -, -, rfl⟩ := hf
    exact emitFrame_inputs _ _
  · obtain ⟨-, -, rfl⟩ := hw
    rfl
  · obtain ⟨p, later, -, -, -, -, eff⟩ := ho
    exact eff.inputs

/-- A run of `n + 1` steps that answers a next state is a step and a run of `n` steps. -/
theorem run_succ {n : Nat} {s t : State} (h : run (n + 1) s = .next t) :
    ∃ u, step s = .next u ∧ run n u = .next t := by
  rw [run] at h
  split at h
  · next u hu => exact ⟨u, hu, h⟩
  · cases h
  · cases h

/-- What every step on a harmless input keeps, a run whose next `n` inputs are harmless keeps for `n` steps. -/
theorem run_keeps {P : State → Prop} {harmless : Input → Prop}
    (keeps : ∀ s t, P s → (∀ e ∈ s.inputs.head?, harmless e) → step s = .next t → P t) (n : Nat) {s t : State}
    (hs : P s) (quiet : ∀ e ∈ s.inputs.take n, harmless e) (h : run n s = .next t) : P t := by
  induction n generalizing s with
  | zero =>
    cases h
    exact hs
  | succ n ih =>
    obtain ⟨u, hu, h⟩ := run_succ h
    have head : ∀ e ∈ s.inputs.head?, harmless e := fun e he =>
      quiet e (List.mem_of_mem_head? (List.head?_take (l := s.inputs) ▸ he))
    have tail : ∀ e ∈ u.inputs.take n, harmless e := fun e he => by
      rw [step_inputs hu, ← Nat.add_sub_cancel n 1, ← List.tail_take_eq_take_tail] at he
      exact quiet e (List.mem_of_mem_tail he)
    exact ih (keeps s u hs head hu) tail h

/-! ## Each side, unchanged and unchanged again -/

theorem sameRx.refl (s : State) : sameRx s s := ⟨⟨rfl, rfl, rfl, rfl, rfl⟩, fun _ => rfl⟩

theorem sameRx.trans {s t u : State} (hst : sameRx s t) (htu : sameRx t u) : sameRx s u := by
  obtain ⟨⟨state, err, total, remaining, seq⟩, buf⟩ := hst
  obtain ⟨⟨state', err', total', remaining', seq'⟩, buf'⟩ := htu
  exact ⟨⟨state'.trans state, err'.trans err, total'.trans total, remaining'.trans remaining, seq'.trans seq⟩,
    fun i => (buf' i).trans (buf i)⟩

theorem sameTx.refl (s : State) : sameTx s s := ⟨⟨rfl, rfl, rfl, rfl, rfl, rfl⟩, fun _ => rfl⟩

theorem sameTx.trans {s t u : State} (hst : sameTx s t) (htu : sameTx t u) : sameTx s u := by
  obtain ⟨⟨state, err, done, len, nad, frame⟩, buf⟩ := hst
  obtain ⟨⟨state', err', done', len', nad', frame'⟩, buf'⟩ := htu
  exact ⟨⟨state'.trans state, err'.trans err, done'.trans done, len'.trans len, nad'.trans nad, frame'.trans frame⟩,
    fun i => (buf' i).trans (buf i)⟩

/-! ## One step of each wait -/

/-- No word of the Host changes the receive side, unless it is an RX_ACK after an ended read. -/
theorem hostStep_sameRx {w : Word32} {s t : State} (h : hostStep w s = .next t) :
    sameRx s t ∨ (opOf w = 4 ∧ (s.rxState = .complete ∨ s.rxState = .failed)) := by
  have ha := hostStep_answer w s
  rw [h] at ha
  cases ha with
  | rxAck acc op ended => exact .inr ⟨op, ended⟩
  | rejected | nop | txbWr | txStart | tooLong | rxbRd => exact .inl (sameRx.refl s)

/-- The Framer's step does not touch the receive side (R137). -/
theorem emitFrame_sameRx (p : PortFrame) (s : State) : sameRx s (emitFrame p s) :=
  ⟨⟨emitFrame_rxState p s, emitFrame_rxErr p s, emitFrame_rxTotal p s, emitFrame_rxRemaining p s, emitFrame_rxSeq p s⟩,
    fun i => congrArg (Memory.read · i) (emitFrame_rxbuf p s)⟩

/-- A read that awaits a frame is left as it is by every step but a reset and one that offers it a frame (R238). -/
theorem step_sameRx_of_awaiting {s t : State} (await : s.rxState = .awaitFs ∨ s.rxState = .awaitCf)
    (quiet : ∀ e ∈ s.inputs.head?, isReset e = false ∧ e ≠ .linkOffer) (h : step s = .next t) : sameRx s t := by
  rcases step_next_cases h with ⟨-, rfl⟩ | ⟨e, rest, hi, hr | hc | hidle | hf | hw | ho⟩
  · exact sameRx.refl _
  all_goals obtain ⟨noReset, noOffer⟩ := quiet e (by rw [hi, List.head?_cons, Option.mem_some_iff])
  · obtain ⟨isRst, -⟩ := hr
    cases noReset.symm.trans isRst
  · obtain ⟨w, -, hw, -⟩ := hc
    refine (hostStep_sameRx hw).resolve_right fun ⟨_, ended⟩ => ?_
    cases ((lrxReady_iff s).mpr await).symm.trans ((lrxReady_eq_false_iff s).mpr ended)
  · obtain ⟨-, -, rfl⟩ := hidle
    exact sameRx.refl s
  · obtain ⟨f, -, -, -, -, rfl⟩ := hf
    exact emitFrame_sameRx _ { s with inputs := rest }
  · obtain ⟨offer, -⟩ := hw
    exact absurd offer noOffer
  · obtain ⟨p, later, offer, -⟩ := ho
    exact absurd offer noOffer

/-- A message being sent is left as it is by every step but a reset and one with the Link ready (R238). -/
theorem step_sameTx_of_sending {s t : State} (sending : s.txState = .sending)
    (quiet : ∀ e ∈ s.inputs.head?, isReset e = false ∧ e ≠ .linkReady) (h : step s = .next t) : sameTx s t := by
  have taken {e : Input} {rest : List Input} (hi : s.inputs = e :: rest) : isReset e = false ∧ e ≠ .linkReady :=
    quiet e (by rw [hi, List.head?_cons, Option.mem_some_iff])
  cases step_of_sending sending h with
  | kept _ regs buf => exact ⟨regs, fun i => congrArg (Memory.read · i) buf⟩
  | reset e rest hi isRst =>
    obtain ⟨noReset, -⟩ := taken hi
    cases noReset.symm.trans isRst
  | emitted f rest hi =>
    obtain ⟨-, noReady⟩ := taken hi
    exact absurd rfl noReady

/-! ## The status words after a reset (R230) -/

@[simp] theorem status0_resetBlock (s : State) : status0 (resetBlock s) = 0x00000100#32 :=
  show status0 State.reset = 0x00000100#32 by decide

@[simp] theorem status1_resetBlock (s : State) : status1 (resetBlock s) = 0#32 :=
  show status1 State.reset = 0#32 by decide

@[simp] theorem status2_resetBlock (s : State) : status2 (resetBlock s) = 0#32 :=
  show status2 State.reset = 0#32 by decide

end Sys2Proof.Machine

/-! The obligations on the waits and on reset. -/

namespace Sys2Proof.Proofs

open Sys2Proof.Machine

/-- Settles O53: each side is as it was at the start, so it is still waiting, and so the next step keeps it too; the two
commands that could end a wait meet their guards. -/
theorem waitsHaveNoTimeout : Obligations.WaitsHaveNoTimeout := by
  refine ⟨fun n s t await quiet h => ?_, fun n s t sending quiet h => ?_, fun s await => exec_rxAck_awaiting await,
    fun s len nad sending => exec_txStart_sending len nad sending⟩
  · refine run_keeps (P := sameRx s) (fun u v hu calm hv => ?_) n (sameRx.refl s) quiet h
    have ⟨⟨rxState, _⟩, _⟩ := hu
    exact hu.trans (step_sameRx_of_awaiting (rxState ▸ await) calm hv)
  · refine run_keeps (P := sameTx s) (fun u v hu calm hv => ?_) n (sameTx.refl s) quiet h
    have ⟨⟨txState, _⟩, _⟩ := hu
    exact hu.trans (step_sameTx_of_sending (txState.trans sending) calm hv)

/-- Settles O45: the state after the reset step is that of a reset block, field by field, with no cell in either buffer. -/
theorem resetStepRestoresEverything : Obligations.ResetStepRestoresEverything := by
  intro s cmd ready offer rest hi
  let u : State := { s with inputs := rest }
  exact ⟨resetBlock u, step_reset hi rfl, resetBlock_txState u, resetBlock_txErr u, resetBlock_txDone u,
    resetBlock_txLen u, resetBlock_txNad u, resetBlock_txFrame u, resetBlock_rxState u, resetBlock_rxErr u,
    resetBlock_rxTotal u, resetBlock_rxRemaining u, resetBlock_rxSeq u, resetBlock_rspOk u, resetBlock_rspData u,
    Memory.read_nil, Memory.read_nil, status0_resetBlock u, status1_resetBlock u, status2_resetBlock u,
    resetBlock_linkIn u, resetBlock_linkOut u, resetBlock_inputs u⟩

end Sys2Proof.Proofs

/-! The encodings, forwards and back: the fields of an encoded word, the words a decoded instruction came from, and the
frames of a port value (spec/30_encoding.md R70 to R86, spec/20_memory.md R53). -/

namespace Sys2Proof.Machine

/-- A number that fits is what its word holds. -/
theorem toNat_ofNat_of_lt {w n : Nat} (h : n < 2 ^ w) : (BitVec.ofNat w n).toNat = n :=
  (BitVec.toNat_ofNat n w).trans (Nat.mod_eq_of_lt h)

/-! ## The fields of an encoded command word (R81) -/

theorem reservedWord_fields (rest : BitVec 28) (op : BitVec 4) :
    opField (rest ++ op : Word32) = op ∧ restField (rest ++ op : Word32) = rest := by
  constructor <;>
  · apply extract_eq_of_toNat
    rw [reservedWord_toNat]
    omega

theorem txbWrWord_fields (idx : BitVec 12) (data : Byte) :
    let w : Word32 := 0#8 ++ idx ++ data ++ 1#4
    opField w = 1#4 ∧ w.extractLsb' 24 8 = 0#8 ∧ indexField w = idx ∧ byteField w = data := by
  refine ⟨?_, ?_, ?_, ?_⟩ <;>
  · apply extract_eq_of_toNat
    simp only [txbWrWord_toNat, BitVec.toNat_ofNat]
    omega

theorem txStartWord_fields (len : BitVec 16) (nad : Byte) :
    let w : Word32 := 0#4 ++ len ++ nad ++ 2#4
    opField w = 2#4 ∧ w.extractLsb' 28 4 = 0#4 ∧ lengthField w = len ∧ byteField w = nad := by
  refine ⟨?_, ?_, ?_, ?_⟩ <;>
  · apply extract_eq_of_toNat
    simp only [txStartWord_toNat, BitVec.toNat_ofNat]
    omega

theorem rxbRdWord_fields (idx : BitVec 12) :
    let w : Word32 := 0#8 ++ idx ++ 0#8 ++ 3#4
    opField w = 3#4 ∧ w.extractLsb' 24 8 = 0#8 ∧ byteField w = 0#8 ∧ indexField w = idx := by
  refine ⟨?_, ?_, ?_, ?_⟩ <;>
  · apply extract_eq_of_toNat
    simp only [rxbRdWord_toNat, BitVec.toNat_ofNat]
    omega

/-! ## What an encoded command decodes to -/

theorem decode_encode_txbWr (idx : BitVec 12) (data : Byte) :
    decode (encode (.txbWr idx data)) = .ok (.txbWr idx data) := by
  obtain ⟨op, zero, index, byte⟩ := txbWrWord_fields idx data
  simp [encode, decode, decodeCommand, whenClear, op, zero, index, byte]

theorem decode_encode_txStart (len : BitVec 16) (nad : Byte) :
    decode (encode (.txStart len nad)) = .ok (.txStart len nad) := by
  obtain ⟨op, zero, length, byte⟩ := txStartWord_fields len nad
  simp [encode, decode, decodeCommand, whenClear, op, zero, length, byte]

theorem decode_encode_rxbRd (idx : BitVec 12) : decode (encode (.rxbRd idx)) = .ok (.rxbRd idx) := by
  obtain ⟨op, zero, byte, index⟩ := rxbRdWord_fields idx
  simp [encode, decode, decodeCommand, whenClear, op, zero, byte, index]

/-- A code of at least `b` is none of the codes below `b`. -/
theorem ne_ofNat_of_le {x : BitVec 4} {b n : Nat} (h : b ≤ x.toNat) (hn : n < b) : x ≠ BitVec.ofNat 4 n := by
  rintro rfl
  rw [BitVec.toNat_ofNat] at h
  exact absurd (h.trans (Nat.mod_le n _)) (Nat.not_le.mpr hn)

/-- A word with a reserved operation code decodes to the row of its code, whatever its other bits (R85). -/
theorem decode_reserved (op : BitVec 4) (rest : BitVec 28) (h : 5 ≤ op.toNat) :
    decode (.command (rest ++ op)) = .ok (if op = 5#4 then .reservedOp5 rest else if op = 6#4 then .reservedOp6 rest
      else if op = 7#4 then .reservedOp7 rest else .reservedOp8_15 op rest) := by
  obtain ⟨hop, hrest⟩ := reservedWord_fields rest op
  have ne {n : Nat} (hn : n < 5) : op ≠ BitVec.ofNat 4 n := ne_ofNat_of_le h hn
  simp only [decode, decodeCommand, hop, hrest]
  rw [if_neg (ne (n := 0) (by decide)), if_neg (ne (n := 1) (by decide)), if_neg (ne (n := 2) (by decide)),
    if_neg (ne (n := 3) (by decide)), if_neg (ne (n := 4) (by decide))]
  split_ifs <;> rfl

theorem decode_encode_reservedOp8_15 {op : BitVec 4} (rest : BitVec 28) (h : 8 ≤ op.toNat) :
    decode (encode (.reservedOp8_15 op rest)) = .ok (.reservedOp8_15 op rest) := by
  have ne {n : Nat} (hn : n < 8) : op ≠ BitVec.ofNat 4 n := ne_ofNat_of_le h hn
  rw [encode, decode_reserved op rest (by omega), if_neg (ne (n := 5) (by decide)), if_neg (ne (n := 6) (by decide)),
    if_neg (ne (n := 7) (by decide))]

/-! ## Frames (R70 to R79) -/

@[simp] theorem decode_frame (f : Frame) : decode (.frame (packFrame f)) = .ok (decodeFrame f) := by
  rw [decode, unpackFrame_packFrame]

/-- The length of a First frame is its two parts joined (R77). -/
theorem ffDl_parts (dl : BitVec 12) : dl.extractLsb' 8 4 ++ dl.extractLsb' 0 8 = dl := by
  apply BitVec.eq_of_toNat_eq
  rw [ffDl_toNat, toNat_extract, toNat_extract]
  omega

theorem ffDl_high (hi : BitVec 4) (lo : Byte) : (hi ++ lo : BitVec 12).extractLsb' 8 4 = hi := by
  apply extract_eq_of_toNat
  rw [ffDl_toNat]
  omega

theorem ffDl_low (hi : BitVec 4) (lo : Byte) : (hi ++ lo : BitVec 12).extractLsb' 0 8 = lo := by
  apply extract_eq_of_toNat
  rw [ffDl_toNat]
  omega

/-- A frame of a reserved type 4 to 15 decodes to the row its type belongs to (R79). -/
theorem decodeFrame_reserved (nad : Byte) {type : BitVec 4} (lo : BitVec 4) (d : DataArea) (h : 4 ≤ type.toNat) :
    decodeFrame ⟨nad, pciOf type lo, d⟩ =
      if type.toNat ≤ 7 then .reservedType4_7 nad type lo d else .reservedType8_F nad type lo d := by
  have ne {n : Nat} (hn : n < 4) : type ≠ BitVec.ofNat 4 n := ne_ofNat_of_le h hn
  simp only [decodeFrame, pciType_pciOf, pciLow_pciOf]
  rw [if_neg (ne (n := 0) (by decide)), if_neg (ne (n := 1) (by decide)), if_neg (ne (n := 2) (by decide)),
    if_neg (ne (n := 3) (by decide))]

/-- What a frame decodes to is well-formed and encodes to that frame. -/
theorem encode_decodeFrame (f : Frame) :
    WellFormed (decodeFrame f) = true ∧ encode (decodeFrame f) = .frame (packFrame f) := by
  obtain ⟨nad, pci, d⟩ := f
  have joined : pciOf (pciType pci) (pciLow pci) = pci := pciOf_type_low pci
  simp only [decodeFrame]
  split_ifs with h0 h1 h2 h3 h7
  · exact ⟨rfl, by rw [encode, ← h0, joined]⟩
  · refine ⟨rfl, ?_⟩
    rw [encode, ffDl_high, ffDl_low, ← h1, joined]
  · exact ⟨rfl, by rw [encode, ← h2, joined]⟩
  · exact ⟨rfl, by rw [encode, ← h3, joined]⟩
  · have ne {n : Nat} (hn : n < 16) (h : pciType pci ≠ BitVec.ofNat 4 n) : (pciType pci).toNat ≠ n := fun e =>
      h (BitVec.eq_of_toNat_eq (e.trans (toNat_ofNat_of_lt hn).symm))
    have type0 := ne (by decide) h0
    have type1 := ne (by decide) h1
    have type2 := ne (by decide) h2
    have type3 := ne (by decide) h3
    exact ⟨by simp only [WellFormed, wfType4_7, Bool.and_eq_true, decide_eq_true_eq]; omega, by rw [encode, joined]⟩
  · exact ⟨decide_eq_true (by omega), by rw [encode, joined]⟩

/-- A port value is the packing of the frame it is read as (R53). -/
@[simp] theorem packFrame_unpackFrame (p : PortFrame) : packFrame (unpackFrame p) = p := by
  apply BitVec.eq_of_toNat_eq
  simp only [packFrame_toNat, unpackFrame, portByte_toNat]
  omega

/-- Byte `k` of the frame of a port value (R53). -/
theorem unpackFrame_bytes (p : PortFrame) {k : Nat} (hk : k < 8) : (unpackFrame p).bytes[k]? = some (portByte p k) := by
  interval_cases k <;> rfl

/-! ## The word a decoded command came from -/

/-- What a command word decodes to is well-formed and encodes to that word. -/
theorem encode_of_decode_command {w : Word32} {i : Instr} (h : decode (.command w) = .ok i) :
    WellFormed i = true ∧ encode i = .command w := by
  have of_toNat {v : Word32} (hv : v.toNat = w.toNat) : Encoded.command v = .command w :=
    congrArg Encoded.command (BitVec.eq_of_toNat_eq hv)
  have hw := decode_command w
  rw [h] at hw
  cases hw with
  | nop wf op | txbWr wf op | txStart wf op | rxbRd wf op =>
    refine ⟨rfl, of_toNat ?_⟩
    unfold malformed at wf
    unfold opOf at op wf
    simp only [txbWrWord_toNat, txStartWord_toNat, rxbRdWord_toNat, indexField_toNat, lengthField_toNat, byteField_toNat,
      BitVec.toNat_ofNat]
    omega
  | rxAck wf op => exact ⟨rfl, congrArg Encoded.command (eq_rxAckWord op wf).symm⟩
  | reservedOp5 op | reservedOp6 op | reservedOp7 op =>
    refine ⟨rfl, of_toNat ?_⟩
    unfold opOf at op
    rw [reservedWord_toNat, restField_toNat, BitVec.toNat_ofNat]
    omega
  | reservedOp8_15 op =>
    unfold opOf at op
    refine ⟨decide_eq_true (by rw [opField_toNat]; exact op), of_toNat ?_⟩
    rw [reservedWord_toNat, restField_toNat, opField_toNat]
    omega

/-- What a word or frame decodes to is well-formed and encodes to it. -/
theorem encode_of_decode {e : Encoded} {i : Instr} (h : decode e = .ok i) : WellFormed i = true ∧ encode i = e := by
  cases e with
  | command w => exact encode_of_decode_command h
  | frame p =>
    cases h
    simpa using encode_decodeFrame (unpackFrame p)

/-- A defined operation code is all that the must-be-zero bits are checked for (R84, R85). -/
theorem not_malformed_of_reserved {w : Word32} (h : 5 ≤ opOf w) : ¬ malformed w := by
  unfold malformed
  omega

/-- The decoder's refusal of a command word, in both directions (R84). -/
theorem decode_error_iff (w : Word32) : (∃ e, decode (.command w) = .error e) ↔ malformed w := by
  have hw := decode_command w
  generalize decode (.command w) = r at hw
  cases hw with
  | mustBeZero bad => exact ⟨fun _ => bad, fun _ => ⟨_, rfl⟩⟩
  | nop wf | txbWr wf | txStart wf | rxbRd wf | rxAck wf => simpa using wf
  | reservedOp5 op | reservedOp6 op | reservedOp7 op | reservedOp8_15 op =>
    simpa using not_malformed_of_reserved (w := w) (by omega)

end Sys2Proof.Machine

/-! The obligations on the encodings. -/

namespace Sys2Proof.Proofs

open Sys2Proof.Machine

/-- Settles O1: instruction by instruction; a command by the fields of its word, a frame by its PCI byte. -/
theorem decodeEncodeRoundTrip : Obligations.DecodeEncodeRoundTrip := by
  intro i wf
  cases i with
  | nop => rfl
  | txbWr idx data => exact decode_encode_txbWr idx data
  | txStart len nad => exact decode_encode_txStart len nad
  | rxbRd idx => exact decode_encode_rxbRd idx
  | rxAck => exact decode_rxAckWord
  | reservedOp5 rest => exact decode_reserved 5#4 rest (by decide)
  | reservedOp6 rest => exact decode_reserved 6#4 rest (by decide)
  | reservedOp7 rest => exact decode_reserved 7#4 rest (by decide)
  | reservedOp8_15 op rest => exact decode_encode_reservedOp8_15 rest (of_decide_eq_true wf)
  | sf nad dl d => simp [encode, decodeFrame]
  | ff nad dl d => simp [encode, decodeFrame, ffDl_parts]
  | cf nad sn d => simp [encode, decodeFrame]
  | reservedType3 nad lo d => simp [encode, decodeFrame]
  | reservedType4_7 nad type lo d =>
    obtain ⟨low, high⟩ : 4 ≤ type.toNat ∧ type.toNat ≤ 7 := by simpa [WellFormed, wfType4_7] using wf
    rw [encode, decode_frame, decodeFrame_reserved nad lo d low, if_pos high]
  | reservedType8_F nad type lo d =>
    have low : 8 ≤ type.toNat := of_decide_eq_true wf
    rw [encode, decode_frame, decodeFrame_reserved nad lo d (by omega), if_neg (by omega)]

/-- Settles O2: a word is put together again from its fields, a frame from its type and low nibble. -/
theorem encodeDecodeRoundTrip : Obligations.EncodeDecodeRoundTrip :=
  fun _ _ h => encode_of_decode h

/-- Settles O3: of what a word can decode to, the refusal is for the malformed ones and every instruction for the others. -/
theorem decoderRefusesExactlyMalformedWords : Obligations.DecoderRefusesExactlyMalformedWords :=
  decode_error_iff

/-- Settles O7: by running the decoder on each of the seven. -/
theorem writtenWordsDecode : Obligations.WrittenWordsDecode :=
  ⟨rfl, rfl, rfl, rfl, rfl, rfl, rfl⟩

/-- Settles O8: a port value shows the bytes of its frame, and unpacking undoes packing and is undone by it. -/
theorem portPackingIsBytewise : Obligations.PortPackingIsBytewise := by
  refine ⟨fun f k hk => ?_, packFrame_unpackFrame⟩
  have h := unpackFrame_bytes (packFrame f) hk
  rwa [unpackFrame_packFrame] at h

end Sys2Proof.Proofs

/-! The invariant, half by half: what resets, instructions and the Framer's step do to the transmit half and to the receive
half (spec/10_state.md R42, R43, section 7). -/

namespace Sys2Proof.Machine

/-- The transmit half of the invariant: the registers and `TXBUF`. -/
structure TxHalf (s : State) : Prop where
  regs : TxInv s
  wf : Memory.wf s.txbuf = true

/-- The receive half of the invariant: the registers and `RXBUF`. -/
structure RxHalf (s : State) : Prop where
  regs : RxInv s
  wf : Memory.wf s.rxbuf = true
  spare : Memory.read s.rxbuf 4095 = none
  partialMessage : s.rxState = .awaitCf → ∀ i < writePointer s, (Memory.read s.rxbuf i).isSome = true
  wholeMessage : s.rxState = .complete → ∀ i < s.rxTotal.toNat, (Memory.read s.rxbuf i).isSome = true

theorem inv_iff_halves (s : State) : Inv s ↔ TxHalf s ∧ RxHalf s :=
  ⟨fun ⟨tx, rx, buf⟩ =>
    ⟨⟨tx, buf.txWf⟩, ⟨rx, buf.rxWf, buf.rxSpare, buf.partialMessage, buf.wholeMessage⟩⟩,
   fun ⟨tx, rx⟩ => ⟨tx.regs, rx.regs, ⟨tx.wf, rx.wf, rx.spare, rx.partialMessage, rx.wholeMessage⟩⟩⟩

/-! ## The transmit half -/

/-- The transmit half speaks of the transmit registers and of `TXBUF` alone. -/
theorem TxHalf.congr {s t : State} (h : TxHalf s) (regs : sameTxRegs s t) (buf : t.txbuf = s.txbuf) : TxHalf t := by
  obtain ⟨⟨sending, done, tooLarge, errRange, frameMax⟩, wf⟩ := h
  obtain ⟨hstate, herr, hdone, hlen, -, hframe⟩ := regs
  refine ⟨⟨?_, ?_, ?_, ?_, ?_⟩, buf ▸ wf⟩ <;> simpa only [hstate, herr, hdone, hlen, hframe]

theorem txHalf_resetBlock (s : State) : TxHalf (resetBlock s) where
  regs :=
    { sending := nofun
      done := nofun
      tooLarge := nofun
      errRange := .inl rfl
      frameMax := Nat.zero_le _ }
  wf := rfl

theorem nframes_pos (len : Nat) : 0 < nframes len := by
  rw [nframes_eq]
  split_ifs <;> omega

/-- The acceptance of the frame due keeps the transmit half: it counts the frame, and it ends the message when all are
counted (R137, R138). -/
theorem TxHalf.emitFrame {s : State} (h : TxHalf s) (p : PortFrame) (hs : s.txState = .sending) :
    TxHalf (emitFrame p s) := by
  obtain ⟨legal, noErr, notDone, due⟩ := h.regs.sending hs
  have most := nframes_le legal
  have frame : (s.txFrame + 1#10).toNat = s.txFrame.toNat + 1 := by
    rw [BitVec.toNat_add, BitVec.toNat_ofNat]
    omega
  refine ⟨⟨fun sending => ?_, fun idle _ => ?_, fun tooLarge => ?_, ?_, ?_⟩, ?_⟩
  · rw [emitFrame_txState] at sending
    split_ifs at sending with last
    rw [emitFrame_txLen, emitFrame_txErr, emitFrame_txDone, emitFrame_txFrame, if_neg last, frame]
    exact ⟨legal, noErr, notDone, by omega⟩
  · have last := last_of_emitFrame_idle hs idle
    rw [emitFrame_txErr, emitFrame_txFrame, emitFrame_txLen, frame]
    exact ⟨noErr, last⟩
  · rw [emitFrame_txErr, noErr] at tooLarge
    cases tooLarge
  · rw [emitFrame_txErr]
    exact .inl noErr
  · rw [emitFrame_txFrame, frame]
    omega
  · rw [emitFrame_txbuf]
    exact h.wf

/-- Every instruction keeps the transmit half. -/
theorem Effect.txHalf {s t : State} (eff : Effect s t) (h : TxHalf s) : TxHalf t := by
  cases eff with
  | stored idx data idle =>
    obtain ⟨⟨sending, done, tooLarge, errRange, frameMax⟩, wf⟩ := h
    exact ⟨⟨sending, done, tooLarge, errRange, frameMax⟩, Memory.wf_write data wf idx.isLt⟩
  | tooLong len nad idle long =>
    exact ⟨⟨fun sending => (nomatch idle.symm.trans sending), nofun, fun _ => ⟨idle, rfl, rfl, long⟩, .inr rfl,
      Nat.zero_le _⟩, h.wf⟩
  | started len nad idle legal =>
    exact ⟨⟨fun _ => ⟨legal, rfl, rfl, nframes_pos _⟩, nofun, nofun, .inl rfl, Nat.zero_le _⟩, h.wf⟩
  | rejected | answered | acknowledged | blocked | framing | sequence | single | first | appended =>
    exact h.congr ⟨rfl, rfl, rfl, rfl, rfl, rfl⟩ rfl

/-! ## The receive half -/

/-- The receive half speaks of the receive registers and of `RXBUF` alone. -/
theorem RxHalf.congr {s t : State} (h : RxHalf s) (regs : sameRxRegs s t) (buf : t.rxbuf = s.rxbuf) : RxHalf t := by
  obtain ⟨⟨awaitFs, awaitCf, complete, failed⟩, wf, spare, partialMessage, wholeMessage⟩ := h
  obtain ⟨hstate, herr, htotal, hremaining, hseq⟩ := regs
  refine ⟨⟨?_, ?_, ?_, ?_⟩, buf ▸ wf, buf ▸ spare, ?_, ?_⟩ <;>
    simpa only [writePointer, hstate, herr, htotal, hremaining, hseq, buf]

theorem rxHalf_resetBlock (s : State) : RxHalf (resetBlock s) where
  regs :=
    { awaitFs := fun _ => ⟨rfl, rfl, rfl⟩
      awaitCf := nofun
      complete := nofun
      failed := nofun }
  wf := rfl
  spare := rfl
  partialMessage := nofun
  wholeMessage := nofun

theorem RxHalf.endRead {s : State} (h : RxHalf s) : RxHalf (endRead s) where
  regs :=
    { awaitFs := fun _ => ⟨rfl, rfl, rfl⟩
      awaitCf := nofun
      complete := nofun
      failed := nofun }
  wf := h.wf
  spare := h.spare
  partialMessage := nofun
  wholeMessage := nofun

/-- A read that has failed keeps the receive half, whatever its other registers hold (R202, R203). -/
theorem RxHalf.failed {s t : State} (h : RxHalf s) (state : t.rxState = .failed)
    (err : t.rxErr = .framing ∨ t.rxErr = .sequence) (buf : t.rxbuf = s.rxbuf) : RxHalf t where
  regs :=
    { awaitFs := fun hs => nomatch state.symm.trans hs
      awaitCf := fun hs => nomatch state.symm.trans hs
      complete := fun hs => nomatch state.symm.trans hs
      failed := fun _ => err }
  wf := buf ▸ h.wf
  spare := buf ▸ h.spare
  partialMessage := fun hs => nomatch state.symm.trans hs
  wholeMessage := fun hs => nomatch state.symm.trans hs

/-- Writes below the spare cell keep the canonical form and leave the spare cell unwritten (R34, R60). -/
theorem writeList_below_spare {m : Memory} {i : Nat} {vs : List Byte} (wf : Memory.wf m = true)
    (spare : Memory.read m 4095 = none) (room : i + vs.length ≤ 4095) :
    Memory.wf (Memory.writeList m i vs) = true ∧ Memory.read (Memory.writeList m i vs) 4095 = none := by
  refine ⟨Memory.wf_writeList wf (by omega), ?_⟩
  rw [Memory.read_writeList, if_neg (by omega), spare]

/-- Where everything below the first cell written was written, everything below the end of the write is. -/
theorem writeList_isSome {m : Memory} {i j : Nat} {vs : List Byte} (below : ∀ j < i, (Memory.read m j).isSome = true)
    (hj : j < i + vs.length) : (Memory.read (Memory.writeList m i vs) j).isSome = true := by
  rw [Memory.read_writeList]
  split_ifs with inside
  · rw [List.getElem?_eq_getElem (by omega), Option.isSome_some]
  · exact below j (by omega)

/-- An accepted Single frame keeps the receive half (R165). -/
theorem RxHalf.single {s : State} (h : RxHalf s) (dl : BitVec 4) (d : DataArea) (await : s.rxState = .awaitFs)
    (legal : dl.toNat ≤ 6) : RxHalf (completeSingle (dl.setWidth 12) (storeRx 0 (unpad d dl.toNat) s)) := by
  have length : (unpad d dl.toNat).length = dl.toNat := by rw [unpad_length, Nat.min_eq_left legal]
  have total : (dl.setWidth 12).toNat = dl.toNat := by
    rw [BitVec.toNat_setWidth]
    omega
  obtain ⟨noErr, -, -⟩ := h.regs.awaitFs await
  obtain ⟨wf, spare⟩ := writeList_below_spare h.wf h.spare (i := 0) (vs := unpad d dl.toNat) (by omega)
  refine ⟨⟨nofun, nofun, fun _ => ⟨noErr, rfl⟩, nofun⟩, wf, spare, nofun, fun _ i hi => ?_⟩
  exact writeList_isSome (m := s.rxbuf) nofun (by rw [completeSingle_rxTotal, total] at hi; omega)

/-- An accepted First frame keeps the receive half: the write pointer stands at 5, the next sequence number at 1 (R167). -/
theorem RxHalf.first {s : State} (h : RxHalf s) (dl : BitVec 12) (d : FirstData) (await : s.rxState = .awaitFs)
    (legal : 7 ≤ dl.toNat) : RxHalf (openMessage dl (storeRx 0 d.bytes s)) := by
  have remaining : (dl - 5#12).toNat = dl.toNat - 5 := BitVec.toNat_sub_of_le (show 5 ≤ dl.toNat by omega)
  have pointer : writePointer (openMessage dl (storeRx 0 d.bytes s)) = 5 := by
    show dl.toNat - (dl - 5#12).toNat = 5
    omega
  obtain ⟨noErr, -, -⟩ := h.regs.awaitFs await
  obtain ⟨wf, spare⟩ := writeList_below_spare h.wf h.spare (i := 0) (vs := d.bytes) (by rw [firstBytes_length]; omega)
  refine ⟨⟨nofun, fun _ => ?_, nofun, nofun⟩, wf, spare, fun _ i hi => ?_, nofun⟩
  · rw [pointer]
    exact ⟨noErr, legal, show 1 ≤ (dl - 5#12).toNat by omega, remaining.le, rfl, rfl⟩
  · rw [pointer] at hi
    exact writeList_isSome (m := s.rxbuf) nofun (by rw [firstBytes_length]; omega)

/-- What is left after a Consecutive frame, as a number (R171). -/
theorem remaining_sub_appendLen (s : State) :
    (s.rxRemaining - BitVec.ofNat 12 (appendLen s)).toNat = s.rxRemaining.toNat - appendLen s := by
  obtain ⟨six, within⟩ := appendLen_le s
  have small : (BitVec.ofNat 12 (appendLen s)).toNat = appendLen s := toNat_ofNat_of_lt (by omega)
  rw [BitVec.toNat_sub_of_le (by rw [BitVec.le_def, small]; exact within), small]

theorem unpad_appendLen_length (d : DataArea) (s : State) : (unpad d (appendLen s)).length = appendLen s := by
  rw [unpad_length, Nat.min_eq_left (appendLen_le s).1]

/-- A Consecutive frame in order keeps the receive half: the write pointer and the sequence number go on together, until
nothing remains and the message is whole (R171). -/
theorem RxHalf.appended {s : State} (h : RxHalf s) (d : DataArea) (await : s.rxState = .awaitCf) :
    RxHalf (advanceRx (s.rxRemaining - BitVec.ofNat 12 (appendLen s))
      (storeRx (writePointer s) (unpad d (appendLen s)) s)) := by
  obtain ⟨noErr, total, some, within, aligned, seq⟩ := h.regs.awaitCf await
  have remaining := remaining_sub_appendLen s
  have length := unpad_appendLen_length d s
  have count : appendLen s = min 6 s.rxRemaining.toNat := rfl
  have pointer : writePointer s = s.rxTotal.toNat - s.rxRemaining.toNat := rfl
  have written : ∀ i < writePointer s + appendLen s,
      (Memory.read (Memory.writeList s.rxbuf (writePointer s) (unpad d (appendLen s))) i).isSome = true :=
    fun i hi => writeList_isSome (h.partialMessage await) (by rw [length]; exact hi)
  obtain ⟨wf, spare⟩ := writeList_below_spare h.wf h.spare (i := writePointer s) (vs := unpad d (appendLen s)) (by omega)
  by_cases last : s.rxRemaining - BitVec.ofNat 12 (appendLen s) = 0#12
  · have noneLeft : s.rxRemaining.toNat - appendLen s = 0 := by rw [← remaining, last, BitVec.toNat_ofNat, Nat.zero_mod]
    have state : (advanceRx (s.rxRemaining - BitVec.ofNat 12 (appendLen s))
      (storeRx (writePointer s) (unpad d (appendLen s)) s)).rxState = .complete := if_pos last
    refine ⟨⟨?_, ?_, fun _ => ⟨noErr, last⟩, ?_⟩, wf, spare, ?_, fun _ i hi => written i ?_⟩
    any_goals exact fun hs => nomatch state.symm.trans hs
    rw [advanceRx_rxTotal, storeRx_rxTotal] at hi
    omega
  · have someLeft : s.rxRemaining.toNat - appendLen s ≠ 0 := fun hz =>
      last (BitVec.eq_of_toNat_eq (by rw [remaining, hz, BitVec.toNat_ofNat, Nat.zero_mod]))
    have state : (advanceRx (s.rxRemaining - BitVec.ofNat 12 (appendLen s))
      (storeRx (writePointer s) (unpad d (appendLen s)) s)).rxState = .awaitCf := (if_neg last).trans await
    have pointer' : writePointer (advanceRx (s.rxRemaining - BitVec.ofNat 12 (appendLen s))
        (storeRx (writePointer s) (unpad d (appendLen s)) s)) = writePointer s + 6 := by
      show s.rxTotal.toNat - (s.rxRemaining - BitVec.ofNat 12 (appendLen s)).toNat = _
      omega
    refine ⟨⟨?_, fun _ => ?_, ?_, ?_⟩, wf, spare, fun _ i hi => written i ?_, ?_⟩
    any_goals exact fun hs => nomatch state.symm.trans hs
    · rw [pointer', advanceRx_rxRemaining, remaining, advanceRx_rxTotal, storeRx_rxTotal, advanceRx_rxSeq,
        storeRx_rxSeq, BitVec.toNat_add, BitVec.toNat_ofNat, seq]
      exact ⟨noErr, total, by omega, by omega, by omega, by omega⟩
    · rw [pointer'] at hi
      omega

/-- Every instruction keeps the receive half. -/
theorem Effect.rxHalf {s t : State} (eff : Effect s t) (h : RxHalf s) : RxHalf t := by
  cases eff with
  | acknowledged ended => exact h.endRead.congr ⟨rfl, rfl, rfl, rfl, rfl⟩ rfl
  | framing ready => exact h.failed rfl (.inl rfl) rfl
  | sequence await => exact h.failed rfl (.inr rfl) rfl
  | single dl d await legal => exact h.single dl d await legal
  | first dl d await legal => exact h.first dl d await legal
  | appended d await within => exact h.appended d await
  | rejected | answered | stored | tooLong | started | blocked => exact h.congr ⟨rfl, rfl, rfl, rfl, rfl⟩ rfl

/-! ## The whole invariant -/

/-- The invariant does not speak of what the environment presents, offers or has accepted. -/
theorem Inv.of_sameBlock {s t : State} (h : Inv s) (tx : sameTxRegs s t) (txbuf : t.txbuf = s.txbuf)
    (rx : sameRxRegs s t) (rxbuf : t.rxbuf = s.rxbuf) : Inv t := by
  obtain ⟨txHalf, rxHalf⟩ := (inv_iff_halves s).mp h
  exact (inv_iff_halves t).mpr ⟨txHalf.congr tx txbuf, rxHalf.congr rx rxbuf⟩

theorem Inv.withEnv {s : State} (h : Inv s) (inputs : List Input) (linkIn : List PortFrame) :
    Inv { s with inputs := inputs, linkIn := linkIn } :=
  h.of_sameBlock ⟨rfl, rfl, rfl, rfl, rfl, rfl⟩ rfl ⟨rfl, rfl, rfl, rfl, rfl⟩ rfl

theorem inv_resetBlock (s : State) : Inv (resetBlock s) :=
  (inv_iff_halves _).mpr ⟨txHalf_resetBlock s, rxHalf_resetBlock s⟩

theorem Effect.inv {s t : State} (eff : Effect s t) (h : Inv s) : Inv t := by
  obtain ⟨txHalf, rxHalf⟩ := (inv_iff_halves s).mp h
  exact (inv_iff_halves t).mpr ⟨eff.txHalf txHalf, eff.rxHalf rxHalf⟩

theorem Inv.emitFrame {s : State} (h : Inv s) (p : PortFrame) (hs : s.txState = .sending) : Inv (emitFrame p s) := by
  obtain ⟨txHalf, rxHalf⟩ := (inv_iff_halves s).mp h
  obtain ⟨rxRegs, -⟩ := emitFrame_sameRx p s
  exact (inv_iff_halves _).mpr ⟨txHalf.emitFrame p hs, rxHalf.congr rxRegs (emitFrame_rxbuf p s)⟩

/-- Every step keeps the invariant. -/
theorem step_inv {s t : State} (h : Inv s) (hstep : step s = .next t) : Inv t := by
  rcases step_next_cases hstep with ⟨-, rfl⟩ | ⟨e, rest, -, hr | hc | hidle | hf | hw | ho⟩
  · exact h
  · obtain ⟨-, rfl⟩ := hr
    exact inv_resetBlock _
  · obtain ⟨w, -, -, eff⟩ := hc
    exact eff.inv (h.withEnv rest s.linkIn)
  · obtain ⟨-, -, rfl⟩ := hidle
    exact h.withEnv rest s.linkIn
  · obtain ⟨f, -, sending, -, -, rfl⟩ := hf
    exact (h.withEnv rest s.linkIn).emitFrame _ sending
  · obtain ⟨-, -, rfl⟩ := hw
    exact h.withEnv rest s.linkIn
  · obtain ⟨p, later, -, -, -, -, eff⟩ := ho
    exact eff.inv (h.withEnv rest later)

/-! ## Where a step from a state that meets the invariant stops -/

/-- Under the invariant the only instruction that stops is an RXB_RD of an unwritten cell. -/
theorem Inv.exec_fault {s : State} (h : Inv s) {i : Instr} {f : Fault} (hf : exec i s = .fault f) :
    ∃ idx, i = .rxbRd idx ∧ Memory.read s.rxbuf idx.toNat = none ∧ f = .unwrittenRead := by
  rcases exec_fault_cases hf with hread | ⟨-, -, -, -, await, -, above, -⟩
  · exact hread
  · obtain ⟨-, -, -, within, -, -⟩ := h.rx.awaitCf await
    exact absurd (BitVec.le_def.mpr (by omega)) above

/-- A Framer step stops at `UnwrittenRead` exactly where a cell of its frame is unwritten (R137, R234). -/
theorem frameK_eq_none_iff (nad : Byte) (buf : Memory) (len k : Nat) :
    frameK nad buf len k = none ↔
      ∃ i, sliceStart k ≤ i ∧ i < sliceStart k + sliceLen len k ∧ Memory.read buf i = none := by
  have range : frameK nad buf len k = none ↔ Memory.readRange buf (sliceStart k) (sliceLen len k) = none := by
    unfold frameK
    cases Memory.readRange buf (sliceStart k) (sliceLen len k) <;> simp
  rw [range, Memory.readRange_eq_none_iff]
  constructor
  · rintro ⟨j, hj, hr⟩
    exact ⟨sliceStart k + j, by omega, by omega, hr⟩
  · rintro ⟨i, lower, upper, hr⟩
    exact ⟨i - sliceStart k, by omega, by rwa [Nat.add_sub_cancel' lower]⟩

/-- The Link's acceptance of a frame with an unwritten cell (R137, R234). -/
theorem step_ready_unwritten {s : State} {rest : List Input} {i : Nat} (hi : s.inputs = .linkReady :: rest)
    (sending : s.txState = .sending) (due : frameDue s = true) (lower : sliceStart s.txFrame.toNat ≤ i)
    (upper : i < sliceStart s.txFrame.toNat + sliceLen s.txLen.toNat s.txFrame.toNat)
    (missing : Memory.read s.txbuf i = none) : step s = .fault .unwrittenRead :=
  (step_cons hi).trans (framerStep_unwritten (s := { s with inputs := rest }) sending due
    ((frameK_eq_none_iff _ _ _ _).mpr ⟨i, lower, upper, missing⟩))

/-- In `SENDING` the invariant makes a frame due (R42). -/
theorem Inv.frameDue {s : State} (h : Inv s) (sending : s.txState = .sending) : frameDue s = true := by
  obtain ⟨legal, -, -, due⟩ := h.tx.sending sending
  exact (frameDue_iff s).mpr ⟨legal, due⟩

/-- A host word that decodes to RXB_RD is the word of that RXB_RD. -/
theorem eq_rxbRdWord {w : Word32} {idx : BitVec 12} (h : decode (.command w) = .ok (.rxbRd idx)) : w = rxbRdWord idx :=
  (Encoded.command.inj (encode_of_decode_command h).2).symm

/-- No frame is an RXB_RD. -/
theorem decodeFrame_ne_rxbRd (f : Frame) (idx : BitVec 12) : decodeFrame f ≠ .rxbRd idx := by
  intro h
  have encoded := (encode_decodeFrame f).2
  rw [h] at encoded
  cases encoded

/-- Under the invariant a step stops only at an RXB_RD of an unwritten cell or at a frame with an unwritten cell. -/
theorem Inv.step_fault {s : State} (h : Inv s) {f : Fault} (hf : step s = .fault f) :
    f = .unwrittenRead ∧
    ((∃ idx rest, s.inputs = .command (rxbRdWord idx) :: rest ∧ Memory.read s.rxbuf idx.toNat = none) ∨
     (∃ rest i, s.inputs = .linkReady :: rest ∧ s.txState = .sending ∧ sliceStart s.txFrame.toNat ≤ i ∧
       i < sliceStart s.txFrame.toNat + sliceLen s.txLen.toNat s.txFrame.toNat ∧ Memory.read s.txbuf i = none)) := by
  rcases step_fault_cases hf with hc | ho | hd | hu
  · obtain ⟨w, i, rest, hi, hw, hx⟩ := hc
    obtain ⟨idx, rfl, missing, rfl⟩ := (h.withEnv rest s.linkIn).exec_fault hx
    cases eq_rxbRdWord hw
    exact ⟨rfl, .inl ⟨idx, rest, hi, missing⟩⟩
  · obtain ⟨p, rest, later, -, -, hx⟩ := ho
    obtain ⟨idx, hidx, -⟩ := (h.withEnv rest later).exec_fault hx
    exact absurd hidx (decodeFrame_ne_rxbRd _ _)
  · obtain ⟨rest, -, sending, notDue, -⟩ := hd
    cases notDue.symm.trans (h.frameDue sending)
  · obtain ⟨rest, hi, sending, -, missing, rfl⟩ := hu
    obtain ⟨i, lower, upper, hr⟩ := (frameK_eq_none_iff _ _ _ _).mp missing
    exact ⟨rfl, .inr ⟨rest, i, hi, sending, lower, upper, hr⟩⟩

/-- The step of an RXB_RD of an unwritten cell (R104, R234). -/
theorem step_rxbRd_unwritten {s : State} {idx : BitVec 12} {rest : List Input}
    (hi : s.inputs = .command (rxbRdWord idx) :: rest) (missing : Memory.read s.rxbuf idx.toNat = none) :
    step s = .fault .unwrittenRead :=
  calc step s
    _ = hostStep (rxbRdWord idx) { s with inputs := rest } := step_cons hi
    _ = exec (.rxbRd idx) { s with inputs := rest } := hostStep_ok _ (decode_encode_rxbRd idx)
    _ = .fault .unwrittenRead := exec_rxbRd_unwritten missing

/-- Under the invariant a step is safe: it answers, or it stops at `UnwrittenRead`. -/
theorem Inv.step_safe {s : State} (h : Inv s) : safeOutcome (step s) := by
  cases hs : step s with
  | next t => trivial
  | fault f => exact (h.step_fault hs).1
  | refused r => exact step_ne_refused s r hs

/-- Under the invariant a run of any length is safe. -/
theorem Inv.run_safe {s : State} (h : Inv s) (n : Nat) : safeOutcome (run n s) := by
  induction n generalizing s with
  | zero => trivial
  | succ n ih =>
    have safe := h.step_safe
    rw [run]
    cases hs : step s with
    | next t => exact ih (step_inv h hs)
    | fault f => rwa [hs] at safe
    | refused r => rwa [hs] at safe

/-- In `COMPLETE` the message is there, with `RX_TOTAL` bytes (R34, R175). -/
theorem Inv.message_of_complete {s : State} (h : Inv s) (complete : s.rxState = .complete) :
    ∃ m, message s = some m ∧ m.length = s.rxTotal.toNat ∧ ∀ i < m.length, Memory.read s.rxbuf i = m[i]? := by
  cases hm : message s with
  | none =>
    obtain ⟨i, hi, missing⟩ := (Memory.readRange_eq_none_iff _ _ _).mp hm
    have written := h.buf.wholeMessage complete i hi
    rw [← Nat.zero_add i, missing] at written
    cases written
  | some m =>
    obtain ⟨length, cells⟩ := (Memory.readRange_eq_some_iff _ _ _ _).mp hm
    refine ⟨m, rfl, length, fun i hi => ?_⟩
    rw [← cells i (by omega), Nat.zero_add]

end Sys2Proof.Machine

/-! The obligations on the invariant and on where runs stop. -/

namespace Sys2Proof.Proofs

open Sys2Proof.Machine

/-- Settles O47: the reset state is what a reset step leaves of itself. -/
theorem resetMeetsInvariant : Obligations.ResetMeetsInvariant :=
  inv_resetBlock State.reset

/-- Settles O48: by what a step can do; instructions and the Framer's step keep each half of the invariant. -/
theorem stepKeepsInvariant : Obligations.StepKeepsInvariant :=
  fun _ _ => step_inv

/-- Settles O49: the invariant makes a frame due in `SENDING` and a write pointer in `AWAIT_CF`. -/
theorem onlyUnwrittenReadStopsARun : Obligations.OnlyUnwrittenReadStopsARun :=
  fun _ h => h.step_safe

/-- Settles O50: runs by induction with the invariant, and the two stops by the cells they read. -/
theorem runsStopOnlyAtUnwrittenReads : Obligations.RunsStopOnlyAtUnwrittenReads := by
  refine ⟨fun n s h => ?_, fun ins offers accepted => ?_, fun s h => ⟨fun hf => (h.step_fault hf).2, ?_⟩⟩
  · have safe := h.run_safe n
    refine ⟨fun hf => ?_, fun hf => ?_, fun r hf => ?_⟩ <;> rw [hf] at safe <;> cases safe
  · exact inv_resetBlock { State.reset with inputs := ins, linkIn := offers, linkOut := accepted }
  · rintro (⟨idx, rest, hi, missing⟩ | ⟨rest, i, hi, sending, lower, upper, missing⟩)
    · exact step_rxbRd_unwritten hi missing
    · exact step_ready_unwritten hi sending (h.frameDue sending) lower upper missing

/-- Settles O54: every cell of the message is written, so RXB_RD of each completes with its byte. -/
theorem completeMessageIsReadable : Obligations.CompleteMessageIsReadable := by
  intro s h complete
  obtain ⟨m, hm, length, cells⟩ := h.message_of_complete complete
  refine ⟨m, hm, length, fun idx hidx => ?_⟩
  have byte : Memory.read s.rxbuf idx.toNat = some m[idx.toNat] :=
    (cells _ hidx).trans (List.getElem?_eq_getElem hidx)
  exact ⟨_, exec_rxbRd_written byte, rfl, List.getElem?_eq_getElem hidx⟩

end Sys2Proof.Proofs

/-! The Host's commands and the handshakes: what a step is, by the input presented, and what each side of the block keeps
(spec/10_state.md section 5, spec/40_host_commands.md R101 to R107, spec/60_exceptions.md section 2). -/

namespace Sys2Proof.Machine

/-! ## The step, by the input presented -/

/-- The step with a frame offered to a read that consumes it (R163). -/
theorem step_offer_ready {s : State} {rest : List Input} {p : PortFrame} {later : List PortFrame}
    (hi : s.inputs = .linkOffer :: rest) (hl : s.linkIn = p :: later) (ready : lrxReady s = true) :
    step s = consume p { s with inputs := rest, linkIn := later } :=
  (step_cons hi).trans (offerStep_ready (s := { s with inputs := rest }) hl ready)

/-- What the input ports show with nothing presented. -/
theorem inPorts_nil {s : State} (hi : s.inputs = []) : inPorts s = ⟨false, false, 0#32, false, false, 0#64⟩ := by
  simp [inPorts, hi]

theorem inPorts_reset {s : State} {cmd : Option Word32} {ready offer : Bool} {rest : List Input}
    (hi : s.inputs = .reset cmd ready offer :: rest) : (inPorts s).rst = true := by
  simp [inPorts, hi]

theorem inPorts_command {s : State} {w : Word32} {rest : List Input} (hi : s.inputs = .command w :: rest) :
    inPorts s = ⟨false, true, w, false, false, 0#64⟩ := by
  simp [inPorts, hi]

theorem inPorts_linkReady {s : State} {rest : List Input} (hi : s.inputs = .linkReady :: rest) :
    inPorts s = ⟨false, false, 0#32, true, false, 0#64⟩ := by
  simp [inPorts, hi]

theorem inPorts_linkOffer {s : State} {rest : List Input} (hi : s.inputs = .linkOffer :: rest) :
    inPorts s = ⟨false, false, 0#32, false, !s.linkIn.isEmpty, s.linkIn.headD 0#64⟩ := by
  simp [inPorts, hi]

@[simp] theorem outPorts_ltxValid (s : State) : (outPorts s).ltxValid = ltxValid s := rfl

@[simp] theorem outPorts_lrxReady (s : State) : (outPorts s).lrxReady = lrxReady s := rfl

/-- With the Link ready and no frame offered to it, only the input is taken (R35; log entry 7). -/
theorem step_ready_of_not_valid {s : State} {rest : List Input} (hi : s.inputs = .linkReady :: rest)
    (idle : ltxValid s = false) : step s = .next { s with inputs := rest } := by
  have hs : ¬ s.txState = .sending := by simp [← ltxValid_iff, idle]
  rw [step_cons hi]
  exact if_neg hs

/-- With the Link's turn to offer and no handshake, only the input is taken (R35, R174; log entry 7). -/
theorem step_offer_of_no_handshake {s : State} {rest : List Input} (hi : s.inputs = .linkOffer :: rest)
    (noHandshake : s.linkIn = [] ∨ lrxReady s = false) : step s = .next { s with inputs := rest } := by
  rw [step_cons hi]
  rcases noHandshake with empty | blocked
  · exact offerStep_nil (s := { s with inputs := rest }) empty
  · exact offerStep_blocked (s := { s with inputs := rest }) blocked

/-! ## RXB_RD and frames of another type -/

theorem exec_rxbRd_fault_iff (s : State) (idx : BitVec 12) :
    exec (.rxbRd idx) s = .fault .unwrittenRead ↔ Memory.read s.rxbuf idx.toNat = none := by
  refine ⟨fun h => ?_, exec_rxbRd_unwritten⟩
  rcases hr : Memory.read s.rxbuf idx.toNat with _ | b
  · rfl
  · rw [exec_rxbRd_written hr] at h
    cases h

theorem exec_sf_awaitCf {s : State} (nad : Byte) (dl : BitVec 4) (d : DataArea) (h : s.rxState = .awaitCf) :
    exec (.sf nad dl d) s = .next (raise .framing s) :=
  byRxState_awaitCf _ _ h

theorem exec_ff_awaitCf {s : State} (nad : Byte) (dl : BitVec 12) (d : FirstData) (h : s.rxState = .awaitCf) :
    exec (.ff nad dl d) s = .next (raise .framing s) :=
  byRxState_awaitCf _ _ h

/-! ## What a command leaves unchanged -/

/-- Writes of the response registers, the transmit registers and `TXBUF` leave the receive side and the environment. -/
theorem transmit_frame (s : State) (txState : TxState) (txErr : ErrCode) (txDone : Bool) (txLen : BitVec 16) (txNad : Byte)
    (txFrame : BitVec 10) (txbuf : Memory) (rspOk : Bool) (rspData : Byte) :
    let t : State := { s with txState, txErr, txDone, txLen, txNad, txFrame, txbuf, rspOk, rspData }
    sameRx s t ∧ sameEnv s t :=
  ⟨⟨⟨rfl, rfl, rfl, rfl, rfl⟩, fun _ => rfl⟩, ⟨rfl, rfl, rfl⟩⟩

/-- No word of the Host changes the transmit side, unless it is an accepted TXB_WR or TX_START. -/
theorem hostStep_sameTx {w : Word32} {s t : State} (h : hostStep w s = .next t) :
    sameTx s t ∨ opOf w = 1 ∨ opOf w = 2 := by
  have ha := hostStep_answer w s
  rw [h] at ha
  cases ha with
  | txbWr acc op => exact .inr (.inl op)
  | txStart acc op | tooLong acc op => exact .inr (.inr op)
  | rejected | nop | rxbRd | rxAck => exact .inl (sameTx.refl s)

/-- No instruction touches what the Link will offer or has accepted. -/
theorem Effect.link {s t : State} (h : Effect s t) : t.linkIn = s.linkIn ∧ t.linkOut = s.linkOut := by
  cases h <;> exact ⟨rfl, rfl⟩

/-! ## What a frame leaves unchanged -/

/-- An outcome whose next state differs from `s` in the receive registers and `RXBUF` alone. -/
def ReceiveOnly (s : State) : Host.Outcome State Fault Refusal → Prop
  | .next t => sameTx s t ∧ sameResponse s t ∧ sameEnv s t
  | .fault _ => True
  | .refused _ => True

theorem framingError_receiveOnly (s : State) : ReceiveOnly s (framingError s) := receive_frame s _ _ _ _ _ _

theorem takeSingle_receiveOnly (dl : BitVec 4) (d : DataArea) (s : State) : ReceiveOnly s (takeSingle dl d s) := by
  rw [takeSingle]
  split_ifs
  · exact receive_frame s _ _ _ _ _ _
  · exact framingError_receiveOnly s

theorem takeFirst_receiveOnly (dl : BitVec 12) (d : FirstData) (s : State) : ReceiveOnly s (takeFirst dl d s) := by
  rw [takeFirst]
  split_ifs
  · exact receive_frame s _ _ _ _ _ _
  · exact framingError_receiveOnly s

theorem takeConsecutive_receiveOnly (sn : BitVec 4) (d : DataArea) (s : State) :
    ReceiveOnly s (takeConsecutive sn d s) := by
  rw [takeConsecutive, appendConsecutive]
  split_ifs
  · exact receive_frame s _ _ _ _ _ _
  · trivial
  · exact receive_frame s _ _ _ _ _ _

theorem byRxState_receiveOnly {inFs inCf : State → Host.Outcome State Fault Refusal} {s : State}
    (hFs : ReceiveOnly s (inFs s)) (hCf : ReceiveOnly s (inCf s)) : ReceiveOnly s (byRxState inFs inCf s) := by
  cases hs : s.rxState with
  | awaitFs => rwa [byRxState_awaitFs _ _ hs]
  | awaitCf => rwa [byRxState_awaitCf _ _ hs]
  | complete =>
    rw [byRxState_ended _ _ (.inl hs)]
    exact receive_frame s _ _ _ _ _ _
  | failed =>
    rw [byRxState_ended _ _ (.inr hs)]
    exact receive_frame s _ _ _ _ _ _

/-- A frame writes the receive registers and `RXBUF` alone, whatever its type (R164 to R173). -/
theorem consume_receiveOnly (f : Frame) (s : State) : ReceiveOnly s (consume (packFrame f) s) := by
  have bad := framingError_receiveOnly s
  by_cases h0 : pciType f.pci = 0#4
  · rw [consume_single s h0]
    exact byRxState_receiveOnly (takeSingle_receiveOnly _ _ s) bad
  by_cases h1 : pciType f.pci = 1#4
  · rw [consume_first s h1]
    exact byRxState_receiveOnly (takeFirst_receiveOnly _ _ s) bad
  by_cases h2 : pciType f.pci = 2#4
  · rw [consume_consecutive s h2]
    exact byRxState_receiveOnly bad (takeConsecutive_receiveOnly _ _ s)
  · rw [consume_reserved s h0 h1 h2]
    exact byRxState_receiveOnly bad bad

/-- The rest of the block and the environment after a consumed frame. -/
theorem consume_rest {p : PortFrame} {s t : State} (h : consume p s = .next t) :
    sameTx s t ∧ sameResponse s t ∧ sameEnv s t := by
  have only := consume_receiveOnly (unpackFrame p) s
  rwa [packFrame_unpackFrame, h] at only

/-! ## The four kinds of step of the two sides -/

/-- The Link's turn to offer changes nothing of the transmit side. -/
theorem offerStep_rest {s t : State} (h : offerStep s = .next t) :
    sameTx s t ∧ sameResponse s t ∧ t.linkOut = s.linkOut := by
  rw [offerStep] at h
  split at h
  · cases h
    exact ⟨sameTx.refl s, ⟨rfl, rfl⟩, rfl⟩
  · split_ifs at h
    · obtain ⟨tx, response, -, -, linkOut⟩ := consume_rest h
      exact ⟨tx, response, linkOut⟩
    · cases h
      exact ⟨sameTx.refl s, ⟨rfl, rfl⟩, rfl⟩

/-- The Framer's step changes nothing of the receive side. -/
theorem framerStep_rest {s t : State} (h : framerStep s = .next t) :
    sameRx s t ∧ sameResponse s t ∧ t.linkIn = s.linkIn := by
  rcases framerStep_cases s with ⟨-, hs⟩ | ⟨-, -, hs⟩ | ⟨-, -, -, hs⟩ | ⟨f, -, -, -, hs⟩ <;>
    rw [hs] at h <;> cases h
  · exact ⟨sameRx.refl s, ⟨rfl, rfl⟩, rfl⟩
  · exact ⟨emitFrame_sameRx _ s, ⟨emitFrame_rspOk _ s, emitFrame_rspData _ s⟩, emitFrame_linkIn _ s⟩

/-! ## Runs -/

theorem run_of_step {s t : State} (h : step s = .next t) (n : Nat) : run (n + 1) s = run n t := by
  rw [run, h]

end Sys2Proof.Machine

/-! The obligations on the step, on the Host's commands and on what each side leaves of the other. -/

namespace Sys2Proof.Proofs

open Sys2Proof.Machine

/-- Settles O9: the input is taken, and the Host's step runs what the word decodes to. -/
theorem stepRunsDecodedCommand : Obligations.StepRunsDecodedCommand :=
  fun _ _ _ _ hi hd => (step_cons hi).trans (hostStep_ok _ hd)

/-- Settles O10: a read that awaits a frame takes the one offered, and runs what it decodes to. -/
theorem stepRunsDecodedFrame : Obligations.StepRunsDecodedFrame := by
  intro s p rest later i hi hl await hd
  cases hd
  exact step_offer_ready hi hl ((lrxReady_iff s).mpr await)

/-- Settles O11: input by input, what the ports show of it and what the step makes of it. -/
theorem stepFollowsHandshakes : Obligations.StepFollowsHandshakes := by
  intro s
  cases hi : s.inputs with
  | nil =>
    have same : { s with inputs := ([] : List Input) } = s := by rw [← hi]
    simp [inPorts_nil hi, step_nil hi, same]
  | cons e rest =>
    cases e with
    | reset cmd ready offer => simp [inPorts_reset hi, step_reset hi rfl]
    | command w => simp [inPorts_command hi, step_cons hi, runInput]
    | linkReady =>
      simp only [inPorts_linkReady hi, outPorts_ltxValid, List.tail_cons]
      exact ⟨nofun, nofun, fun _ _ _ => step_cons hi, nofun, fun _ _ idle _ => step_ready_of_not_valid hi idle⟩
    | linkOffer =>
      simp only [inPorts_linkOffer hi, outPorts_lrxReady, List.tail_cons]
      refine ⟨nofun, nofun, nofun, fun _ valid ready => ?_, fun _ _ _ noHandshake => ?_⟩
      · cases hl : s.linkIn with
        | nil => simp [hl] at valid
        | cons p later => exact step_offer_ready hi hl ready
      · refine step_offer_of_no_handshake hi ?_
        cases hl : s.linkIn with
        | nil => exact .inl rfl
        | cons p later => exact .inr (by simpa [hl] using noHandshake)

/-- Settles O22: the table of rejections is all that the Host's step asks for. -/
theorem rejectedWordChangesOnlyResponse : Obligations.RejectedWordChangesOnlyResponse :=
  fun _ _ _ hi rej => step_of_rejectedWord hi rej

/-- Settles O6: each of the four rows means the rejection. -/
theorem reservedCommandsComplete : Obligations.ReservedCommandsComplete :=
  fun _ _ _ => ⟨rfl, rfl, rfl, rfl⟩

/-- Settles O13: NOP writes the two response registers. -/
theorem nopOnlyAnswers : Obligations.NopOnlyAnswers := by
  intro s
  exact ⟨_, exec_nop s, rfl, rfl, sameTx.refl s, transmit_frame s _ _ _ _ _ _ _ _ _⟩

/-- Settles O14: the registers by computation, the cells by a read after the write. -/
theorem txbWrWritesOneCell : Obligations.TxbWrWritesOneCell := by
  intro s idx data idle
  exact ⟨_, exec_txbWr_idle idx data idle, rfl, rfl, fun i => Memory.read_write s.txbuf idx.toNat i data,
    ⟨rfl, rfl, rfl, rfl, rfl, rfl⟩, transmit_frame s _ _ _ _ _ _ _ _ _⟩

/-- Settles O15: both commands meet the guard on `SENDING`. -/
theorem sendingRejectsTransmitCommands : Obligations.SendingRejectsTransmitCommands :=
  fun _ idx data len nad sending => ⟨exec_txbWr_sending idx data sending, exec_txStart_sending len nad sending⟩

/-- Settles O16: the length check passes, and the message is loaded and started. -/
theorem txStartStartsLegalMessage : Obligations.TxStartStartsLegalMessage := by
  intro s len nad idle legal
  exact ⟨_, exec_txStart_legal nad idle legal, rfl, rfl, rfl, rfl, rfl, rfl, rfl, rfl, fun _ => rfl,
    transmit_frame s _ _ _ _ _ _ _ _ _⟩

/-- Settles O18: a written cell is answered in the response registers. -/
theorem rxbRdAnswersCell : Obligations.RxbRdAnswersCell := by
  intro s idx b written
  exact ⟨_, exec_rxbRd_written written, rfl, rfl, sameTx.refl s, transmit_frame s _ _ _ _ _ _ _ _ _⟩

/-- Settles O19: the cell decides between the answer and the fault. -/
theorem rxbRdFaultsExactlyOnUnwrittenCell : Obligations.RxbRdFaultsExactlyOnUnwrittenCell :=
  exec_rxbRd_fault_iff

/-- Settles O20: the state of the read decides between its end and the rejection. -/
theorem rxAckEndsReadOrIsRejected : Obligations.RxAckEndsReadOrIsRejected :=
  ⟨fun s ended => ⟨_, exec_rxAck_ended ended, rfl, rfl, rfl, rfl, rfl, rfl, rfl, fun _ => rfl, sameTx.refl s,
    ⟨rfl, rfl, rfl⟩⟩, fun _ await => exec_rxAck_awaiting await⟩

/-- Settles O39: each of the frames raises the framing error, which writes `RX_STATE` and `RX_ERR` alone. -/
theorem otherTypesFailWhileAwaitingConsecutive : Obligations.OtherTypesFailWhileAwaitingConsecutive := by
  intro s nad dl lo type fdl d fd await
  exact ⟨exec_sf_awaitCf nad dl d await, exec_ff_awaitCf nad fdl fd await,
    exec_reservedType3_awaiting nad lo d (.inr await), exec_reservedType4_7_awaiting nad type lo d (.inr await),
    exec_reservedType8_F_awaiting nad type lo d (.inr await)⟩

/-- Settles O44: RX_ACK opens the next read, and in `AWAIT_FS` a Consecutive frame is a framing error. -/
theorem staleConsecutiveFrameFailsAgain : Obligations.StaleConsecutiveFrameFailsAgain := by
  intro s rest p later failed hi hl type
  let u := accept 0#8 (endRead { s with inputs := .linkOffer :: rest })
  let v : State := { u with inputs := rest, linkIn := later }
  have ack : step s = .next u := step_rxAck_of_ended (.inr failed) hi
  have stale : step u = .next (raise .framing v) :=
    calc step u
      _ = consume p v := step_offer_ready rfl hl rfl
      _ = consume (packFrame (unpackFrame p)) v := by rw [packFrame_unpackFrame]
      _ = .next (raise .framing v) := (consume_consecutive v type).trans (byRxState_awaitFs _ _ rfl)
  have twice : run 2 s = .next (raise .framing v) := by
    rw [run_of_step ack, run_of_step stale, run]
  exact ⟨_, twice, rfl, rfl, rfl, rfl, rfl, fun _ => rfl, sameTx.refl s, rfl, rfl⟩

/-- Settles O52: a frame writes the receive side alone, the Framer the transmit side, and each word the
side of its command. -/
theorem transmitAndReceiveAreIndependent : Obligations.TransmitAndReceiveAreIndependent := by
  intro s t e rest hi h
  rw [step_cons hi] at h
  refine ⟨?_, ?_, ?_, ?_⟩
  · rintro rfl
    exact offerStep_rest (s := { s with inputs := rest }) h
  · rintro rfl
    exact framerStep_rest (s := { s with inputs := rest }) h
  · rintro w rfl op
    exact ⟨(hostStep_sameRx h).resolve_right fun ⟨op4, _⟩ => by omega, (hostStep_effect h).link⟩
  · rintro w rfl op
    exact ⟨(hostStep_sameTx h).resolve_right (by omega), (hostStep_effect h).link⟩

end Sys2Proof.Proofs

/-! The slices and the frames of a message, and what they decode to (spec/41_framer.md R130 to R143). -/

namespace Sys2Proof.Machine

/-! ## Consecutive frames (R134, R139) -/

/-- The bytes of `EncCF` (R134). -/
theorem encCF_bytes (nad : Byte) (k : Nat) {d : List Byte} (hd : d.length ≤ 6) :
    (encCF nad k d).bytes =
      [nad, 0x20#8 ||| BitVec.ofNat 8 (k % 16)] ++ d ++ List.replicate (6 - d.length) 0xFF#8 := by
  have seq : seqOf k = BitVec.ofNat 4 (k % 16) := BitVec.eq_of_toNat_eq (by simp [seqOf])
  show nad :: pciOf 2#4 (seqOf k) :: (areaOf (pad d)).bytes = _
  rw [seq, pciOf_ofNat _ (by omega), areaOf_bytes (pad_length hd), List.append_assoc]
  rfl

/-- Where a long message's Consecutive frames begin (R134). -/
theorem sliceStart_of_pos {k : Nat} (hk : 1 ≤ k) : sliceStart k = 6 * k - 1 := by
  rw [sliceStart_eq, if_neg (by omega)]
  omega

theorem nframes_of_long {len : Nat} (long : 7 ≤ len) : nframes len = 1 + len / 6 := by
  rw [nframes_eq, if_neg (by omega)]
  omega

theorem sliceStart_succ {k : Nat} (hk : 1 ≤ k) : sliceStart (k + 1) = sliceStart k + 6 := by
  rw [sliceStart_of_pos hk, sliceStart_of_pos (by omega)]
  omega

/-- How many bytes the Consecutive frame of index `k` carries: six, or what is left (R134). -/
theorem sliceLen_of_pos {len k : Nat} (long : 7 ≤ len) (hk : 1 ≤ k) : sliceLen len k = min 6 (len - sliceStart k) := by
  rw [sliceLen_eq, if_neg (by omega), if_neg (by omega)]

/-- A Consecutive frame of a message carries a byte, and six unless it is the last (R134). -/
theorem sliceLen_bounds {len k : Nat} (long : 7 ≤ len) (hk : 1 ≤ k) (due : k < nframes len) :
    1 ≤ sliceLen len k ∧ (k + 1 < nframes len → sliceLen len k = 6) := by
  rw [nframes_of_long long] at due
  rw [nframes_of_long long, sliceLen_of_pos long hk, sliceStart_of_pos hk]
  omega

/-- The last frame of a long message reaches its end. -/
theorem length_le_sliceStart_nframes {len : Nat} (long : 7 ≤ len) : len ≤ sliceStart (nframes len) := by
  rw [nframes_of_long long, sliceStart_of_pos (by omega)]
  omega

/-! ## The slices, joined (R141) -/

/-- The bytes before a Consecutive frame and those it carries are the bytes before the next frame. -/
theorem take_sliceStart_succ {m : List Byte} {k : Nat} (long : 7 ≤ m.length) (hk : 1 ≤ k) :
    m.take (sliceStart (k + 1)) = m.take (sliceStart k) ++ sliceOf m k := by
  rw [sliceStart_succ hk, List.take_add, sliceOf, sliceLen_of_pos long hk]
  congr 1
  rw [List.take_eq_take_iff, List.length_drop]
  omega

/-- The slices of the first `k` frames of a long message are its bytes before the next frame. -/
theorem flatMap_sliceOf {m : List Byte} (long : 7 ≤ m.length) {k : Nat} (hk : 1 ≤ k) :
    (List.range k).flatMap (sliceOf m) = m.take (sliceStart k) := by
  induction k, hk using Nat.le_induction with
  | base =>
    rw [List.range_one, List.flatMap_singleton, sliceOf_zero, sliceLen_eq, if_neg (by omega), if_pos rfl]
    rfl
  | succ k hk ih =>
    rw [List.range_succ, List.flatMap_append, ih, List.flatMap_singleton, take_sliceStart_succ long hk]

/-- A short message is its one slice. -/
theorem sliceOf_of_short {m : List Byte} (short : m.length ≤ 6) : sliceOf m 0 = m := by
  rw [sliceOf_zero, sliceLen_eq, if_pos short, List.take_length]

/-! ## What the frames of a message decode to (R143) -/

theorem decodeFrame_encSF (nad : Byte) (len : Nat) (d : List Byte) :
    decodeFrame (encSF nad len d) = .sf nad (BitVec.ofNat 4 len) (areaOf (pad d)) := by
  simp [decodeFrame, encSF]

/-- The five message bytes of a First frame, `F[3]` first. -/
def firstOf (d : List Byte) : FirstData :=
  { b3 := d.getD 0 Config.fill, b4 := d.getD 1 Config.fill, b5 := d.getD 2 Config.fill, b6 := d.getD 3 Config.fill,
    b7 := d.getD 4 Config.fill }

theorem firstOf_bytes {d : List Byte} (h : d.length = 5) : (firstOf d).bytes = d :=
  match d, h with
  | [_, _, _, _, _], _ => rfl

/-- A legal length, taken apart by the encoder, is put together again by the decoder (R77). -/
theorem ffDl_ofNat {len : Nat} (legal : len ≤ 4095) :
    BitVec.ofNat 4 (len / 256) ++ BitVec.ofNat 8 (len % 256) = BitVec.ofNat 12 len := by
  apply BitVec.eq_of_toNat_eq
  rw [ffDl_toNat]
  simp only [BitVec.toNat_ofNat]
  omega

theorem decodeFrame_encFF (nad : Byte) {len : Nat} (d : List Byte) (legal : len ≤ 4095) :
    decodeFrame (encFF nad len d) = .ff nad (BitVec.ofNat 12 len) (firstOf d) := by
  simp [decodeFrame, encFF, areaOf, firstOf, ← ffDl_ofNat legal]

theorem decodeFrame_encCF (nad : Byte) (k : Nat) (d : List Byte) :
    decodeFrame (encCF nad k d) = .cf nad (seqOf k) (areaOf (pad d)) := by
  simp [decodeFrame, encCF]

/-- A frame the Framer makes is a Single frame of at most 6 bytes, a First frame of at least 7 or a
Consecutive one (R143). -/
theorem decodeFrame_frameOf (nad : Byte) {len : Nat} (k : Nat) (d : List Byte) (legal : len ≤ 4095) :
    (∃ dl a, decodeFrame (frameOf nad len k d) = .sf nad dl a ∧ dl.toNat ≤ 6) ∨
    (∃ dl a, decodeFrame (frameOf nad len k d) = .ff nad dl a ∧ 7 ≤ dl.toNat) ∨
    (∃ sn a, decodeFrame (frameOf nad len k d) = .cf nad sn a) := by
  unfold frameOf
  split_ifs with short first
  · have short : len ≤ 6 := short
    exact .inl ⟨_, _, decodeFrame_encSF nad len d, by rw [BitVec.toNat_ofNat]; omega⟩
  · have long : ¬ len ≤ 6 := short
    exact .inr (.inl ⟨_, _, decodeFrame_encFF nad d legal, by rw [BitVec.toNat_ofNat]; omega⟩)
  · exact .inr (.inr ⟨_, _, decodeFrame_encCF nad k d⟩)

/-! ## Sequence numbers (R139) -/

theorem seqOf_eq_zero_iff (k : Nat) : seqOf k = 0#4 ↔ k % 16 = 0 := by
  rw [← BitVec.toNat_inj, seqOf, BitVec.toNat_ofNat, BitVec.toNat_ofNat]

end Sys2Proof.Machine

/-! The Framer's steps: the frame a step hands over, the frame offered, and the run that sends a message
(spec/41_framer.md R135 to R142, spec/10_state.md R35). -/

namespace Sys2Proof.Machine

/-! ## The frame of index `TX_FRAME` -/

/-- `FrameK` from cells that hold the message's slice (R135). -/
theorem frameK_of_cells (nad : Byte) {buf : Memory} {m : List Byte} {k : Nat} (hk : k < nframes m.length)
    (cells : ∀ i, sliceStart k ≤ i → i < sliceStart k + sliceLen m.length k → Memory.read buf i = m[i]?) :
    frameK nad buf m.length k = some (frameOf nad m.length k (sliceOf m k)) := by
  refine (frameK_eq_some_iff _ _ _ _ _).mpr ⟨sliceOf m k, ?_, rfl⟩
  refine (Memory.readRange_eq_some_iff _ _ _ _).mpr ⟨length_sliceOf hk, fun j hj => ?_⟩
  rw [cells _ (by omega) (by omega), sliceOf, List.getElem?_take_of_lt hj, List.getElem?_drop]

/-- The Link's acceptance of a frame that is due and written (R137). -/
theorem step_ready_emits {s : State} {rest : List Input} {f : Frame} (hi : s.inputs = .linkReady :: rest)
    (sending : s.txState = .sending) (due : frameDue s = true)
    (frame : frameK s.txNad s.txbuf s.txLen.toNat s.txFrame.toNat = some f) :
    step s = .next (emitFrame (packFrame f) { s with inputs := rest }) :=
  (step_cons hi).trans (framerStep_emits (s := { s with inputs := rest }) sending due frame)

/-- Of all steps only the Framer's adds to what the Link has accepted, and it adds the frame that was due (R137). -/
theorem step_linkOut {s t : State} (h : step s = .next t) :
    t.linkOut = s.linkOut ∨
    ∃ f rest, s.inputs = .linkReady :: rest ∧ s.txState = .sending ∧ frameDue s = true ∧
      frameK s.txNad s.txbuf s.txLen.toNat s.txFrame.toNat = some f ∧ t.linkOut = s.linkOut ++ [packFrame f] := by
  rcases step_next_cases h with ⟨-, rfl⟩ | ⟨e, rest, hi, hr | hc | hidle | hf | hw | ho⟩
  · exact .inl rfl
  · obtain ⟨-, rfl⟩ := hr
    exact .inl rfl
  · obtain ⟨w, -, -, eff⟩ := hc
    exact .inl eff.link.2
  · obtain ⟨-, -, rfl⟩ := hidle
    exact .inl rfl
  · obtain ⟨f, rfl, sending, due, frame, rfl⟩ := hf
    exact .inr ⟨f, rest, hi, sending, due, frame, emitFrame_linkOut _ _⟩
  · obtain ⟨-, -, rfl⟩ := hw
    exact .inl rfl
  · obtain ⟨p, later, -, -, -, -, eff⟩ := ho
    exact .inl eff.link.2

/-! ## The offered frame -/

/-- What the offered frame is made of, and what the Link has accepted, are as before. -/
def sameOffer (s t : State) : Prop := sameTxRegs s t ∧ t.txbuf = s.txbuf ∧ t.linkOut = s.linkOut

theorem sameOffer.refl (s : State) : sameOffer s s := ⟨⟨rfl, rfl, rfl, rfl, rfl, rfl⟩, rfl, rfl⟩

theorem sameOffer.trans {s t u : State} (hst : sameOffer s t) (htu : sameOffer t u) : sameOffer s u := by
  obtain ⟨⟨state, err, done, len, nad, frame⟩, buf, out⟩ := hst
  obtain ⟨⟨state', err', done', len', nad', frame'⟩, buf', out'⟩ := htu
  exact ⟨⟨state'.trans state, err'.trans err, done'.trans done, len'.trans len, nad'.trans nad, frame'.trans frame⟩,
    buf'.trans buf, out'.trans out⟩

/-- While a message is being sent, every step but a reset and an acceptance leaves the offered frame (R65, R137). -/
theorem step_sameOffer_of_sending {s t : State} (sending : s.txState = .sending)
    (quiet : ∀ e ∈ s.inputs.head?, isReset e = false ∧ e ≠ .linkReady) (h : step s = .next t) : sameOffer s t := by
  have taken {e : Input} {rest : List Input} (hi : s.inputs = e :: rest) : isReset e = false ∧ e ≠ .linkReady :=
    quiet e (by rw [hi, List.head?_cons, Option.mem_some_iff])
  have out : t.linkOut = s.linkOut := (step_linkOut h).resolve_right fun ⟨_, _, hi, _⟩ => (taken hi).2 rfl
  cases step_of_sending sending h with
  | kept _ regs buf => exact ⟨regs, buf, out⟩
  | reset e rest hi isRst => cases (taken hi).1.symm.trans isRst
  | emitted f rest hi => exact absurd rfl (taken hi).2

/-! ## The run that sends a message -/

/-- The state in which the Link has accepted the first `k` frames of the message `m` that `s` has begun to send, and the
inputs `ins` are still to come. -/
def sentState (s : State) (m : List Byte) (k : Nat) (ins : List Input) : State :=
  { s with txFrame := BitVec.ofNat 10 k, inputs := ins,
           linkOut := s.linkOut ++ ((encodeFrames s.txNad m).take k).map packFrame }

/-- One acceptance hands over the next frame; the last one ends the message (R137, R138). -/
theorem step_sentState {s : State} {m : List Byte} {k : Nat} (ins : List Input) (sending : s.txState = .sending)
    (legal : m.length ≤ 4095) (len : s.txLen.toNat = m.length) (holds : txHolds s m) (due : k < nframes m.length) :
    step (sentState s m k (.linkReady :: ins)) = .next
      (if k + 1 = nframes m.length then finishTx (sentState s m (k + 1) ins) else sentState s m (k + 1) ins) := by
  have most := nframes_le legal
  let u := sentState s m k (.linkReady :: ins)
  let f := frameOf s.txNad m.length k (sliceOf m k)
  have index : u.txFrame.toNat = k := toNat_ofNat_of_lt (by omega)
  have frame : frameK s.txNad s.txbuf m.length k = some f := by
    refine frameK_of_cells _ due fun i _ hi => holds i ?_
    have within := length_sliceOf due
    rw [sliceOf, List.length_take, List.length_drop] at within
    omega
  have emitted : emit (packFrame f) { u with inputs := ins } = sentState s m (k + 1) ins := by
    simp [emit, u, f, sentState, List.take_add_one, encodeFrames_getElem? s.txNad due, BitVec.ofNat_add]
  have next : step u = .next (emitFrame (packFrame f) { u with inputs := ins }) :=
    step_ready_emits rfl sending ((frameDue_iff u).mpr (by rw [index]; exact ⟨len ▸ legal, len ▸ due⟩))
      (by rw [index]; exact len ▸ frame)
  rw [next, emitFrame, emitted]
  show Host.Outcome.next (if u.txFrame.toNat + 1 = nframes s.txLen.toNat then _ else _) = _
  rw [index, len]

/-- As many acceptances as there are frames left send the rest of the message and end it. -/
theorem run_sentState {s : State} {m : List Byte} (rest : List Input) (sending : s.txState = .sending)
    (legal : m.length ≤ 4095) (len : s.txLen.toNat = m.length) (holds : txHolds s m) (n : Nat) {k : Nat}
    (left : k + (n + 1) = nframes m.length) :
    run (n + 1) (sentState s m k (List.replicate (n + 1) .linkReady ++ rest)) =
      .next (finishTx (sentState s m (nframes m.length) rest)) := by
  induction n generalizing k with
  | zero =>
    have next := step_sentState rest sending legal len holds (k := k) (by omega)
    rw [if_pos (by omega), show k + 1 = nframes m.length by omega] at next
    exact run_of_step next 0
  | succ n ih =>
    have next := step_sentState (List.replicate (n + 1) .linkReady ++ rest) sending legal len holds (k := k) (by omega)
    rw [if_neg (by omega)] at next
    rw [← ih (k := k + 1) (by omega)]
    exact run_of_step next (n + 1)

/-- An accepted TX_START of a written message and one acceptance per frame send the whole message. -/
theorem run_txStart {s : State} {m : List Byte} {nad : Byte} {rest : List Input} (idle : s.txState = .idle)
    (legal : m.length ≤ 4095) (holds : txHolds s m)
    (hi : s.inputs = .command (txStartWord (BitVec.ofNat 16 m.length) nad) ::
      (List.replicate (nframes m.length) .linkReady ++ rest)) :
    run (nframes m.length + 1) s =
      .next (finishTx (sentState (accept 0#8 (startTx (loadTx (BitVec.ofNat 16 m.length) nad s))) m
        (nframes m.length) rest)) := by
  have len : (BitVec.ofNat 16 m.length).toNat = m.length := toNat_ofNat_of_lt (by omega)
  let started := accept 0#8 (startTx (loadTx (BitVec.ofNat 16 m.length) nad s))
  let ins := List.replicate (nframes m.length) Input.linkReady ++ rest
  have start : step s = .next (sentState started m 0 ins) := by
    have same : sentState started m 0 ins = { started with inputs := ins } := by
      simp [sentState, started, loadTx, startTx, accept, respond]
    calc step s
      _ = exec (.txStart (BitVec.ofNat 16 m.length) nad) { s with inputs := ins } :=
        (step_cons hi).trans (hostStep_ok _ (decode_encode_txStart _ nad))
      _ = .next { started with inputs := ins } := exec_txStart_legal nad idle (by omega)
      _ = .next (sentState started m 0 ins) := by rw [same]
  obtain ⟨n, count⟩ := Nat.exists_eq_add_one.mpr (nframes_pos m.length)
  have send := run_sentState (s := started) rest rfl legal len holds n (k := 0) (by omega)
  rw [run_of_step start, ← send]
  simp only [ins, count]

end Sys2Proof.Machine

/-! The obligations on the frames of a message and on the Framer's steps and runs. -/

namespace Sys2Proof.Proofs

open Sys2Proof.Machine

/-- Settles O27: the frame is `EncCF` of its slice, whose length is between 1 and 6. -/
theorem consecutiveFrameBytes : Obligations.ConsecutiveFrameBytes := by
  intro nad m k n long legal hk due hn
  have len : sliceLen m.length k = n := by rw [sliceLen_of_pos long hk, sliceStart_of_pos hk, hn]
  have slice : sliceOf m k = (m.drop (6 * k - 1)).take n := by rw [sliceOf, len, sliceStart_of_pos hk]
  have count : (sliceOf m k).length = n := (length_sliceOf due).trans len
  have frame : frameOf nad m.length k (sliceOf m k) = encCF nad k (sliceOf m k) :=
    (if_neg (show ¬ m.length ≤ 6 by omega)).trans (if_neg (by omega))
  obtain ⟨some, full⟩ := sliceLen_bounds long hk due
  refine ⟨?_, len ▸ some, len ▸ full⟩
  rw [encodeFrames_getElem? nad due, Option.map_some, frame, encCF_bytes nad k (by omega), count, slice]

/-- Settles O28: a short message is one slice; a long one's slices reach, frame by frame, to its end. -/
theorem framesCoverMessage : Obligations.FramesCoverMessage := by
  intro m legal
  by_cases short : m.length ≤ 6
  · rw [show nframes m.length = 1 from if_pos short, List.range_one, List.flatMap_singleton, sliceOf_of_short short]
  · have long : 7 ≤ m.length := by omega
    exact (flatMap_sliceOf long (nframes_pos _)).trans (List.take_of_length_le (length_le_sliceStart_nframes long))

/-- Settles O29: sequence number 0 is first sent in the frame of index 16. -/
theorem sequenceWrapThresholds : Obligations.SequenceWrapThresholds := by
  intro len long legal
  rw [nframes_of_long long]
  refine ⟨⟨fun ⟨k, hk, due, zero⟩ => ?_, fun h => ⟨16, by omega, by omega, rfl⟩⟩, by omega⟩
  rw [seqOf_eq_zero_iff] at zero
  omega

/-- Settles O30: what a step adds is the frame due, which the Framer made. -/
theorem framerNeverEmitsIllegalFrame : Obligations.FramerNeverEmitsIllegalFrame := by
  intro s t p h added
  rcases step_linkOut h with same | ⟨f, rest, -, -, due, frame, out⟩
  · rw [same] at added
    simp at added
  · obtain rfl : packFrame f = p := by simpa using out.symm.trans added
    obtain ⟨d, -, rfl⟩ := (frameK_eq_some_iff _ _ _ _ _).mp frame
    refine ⟨_, decode_frame _, ?_⟩
    exact decodeFrame_frameOf s.txNad _ d ((frameDue_iff s).mp due).1

/-- Settles O24: `FrameK` of the slice's cells is due, and its acceptance counts it. -/
theorem framerEmitsNextFrame : Obligations.FramerEmitsNextFrame := by
  intro s m k rest hi sending legal len index hk cells
  have most := nframes_le legal
  have due : frameDue s = true := (frameDue_iff s).mpr (by rw [len, index]; exact ⟨legal, hk⟩)
  have frame := frameK_of_cells s.txNad hk cells
  refine ⟨_, step_ready_emits hi sending due (by rw [len, index]; exact frame), emitFrame_linkOut _ _, ?_,
    fun last => ?_, fun more => ?_, emitFrame_txErr _ _, emitFrame_txLen _ _, emitFrame_txNad _ _,
    fun i => congrArg (Memory.read · i) (emitFrame_txbuf _ _), emitFrame_sameRx _ { s with inputs := rest },
    ⟨emitFrame_rspOk _ _, emitFrame_rspData _ _⟩, emitFrame_inputs _ _, emitFrame_linkIn _ _⟩
  · show (emitFrame _ _).txFrame.toNat = k + 1
    rw [emitFrame_txFrame, BitVec.toNat_add, index, BitVec.toNat_ofNat]
    omega
  · rw [emitFrame_txState, emitFrame_txDone]
    exact ⟨if_pos (by rw [index, len]; exact last), if_pos (by rw [index, len]; exact last)⟩
  · rw [emitFrame_txState, emitFrame_txDone]
    exact ⟨(if_neg (by rw [index, len]; exact more)).trans sending, if_neg (by rw [index, len]; exact more)⟩

/-- Settles O25: the frame is due, but one of the cells it reads is unwritten. -/
theorem framerFaultsOnUnwrittenCell : Obligations.FramerFaultsOnUnwrittenCell :=
  fun s _ _ hi sending legal hk lower upper missing =>
    step_ready_unwritten hi sending ((frameDue_iff s).mpr ⟨legal, hk⟩) lower upper missing

/-- Settles O32: of the steps from `SENDING` only a reset writes the message or its address. -/
theorem messageStableWhileSending : Obligations.MessageStableWhileSending := by
  intro s t sending h noReset
  cases step_of_sending sending h with
  | kept _ regs buf =>
    obtain ⟨-, -, -, len, nad, -⟩ := regs
    exact ⟨buf, len, nad⟩
  | reset e rest hi isRst => cases (noReset e rest hi).symm.trans isRst
  | emitted f rest => exact ⟨emitFrame_txbuf _ _, emitFrame_txLen _ _, emitFrame_txNad _ _⟩

/-- Settles O33: the start, then one acceptance for each frame of `Encode(nad, m)`. -/
theorem transmitRunEmitsEncodeInOrder : Obligations.TransmitRunEmitsEncodeInOrder := by
  intro s m nad rest idle legal holds hi
  have most := nframes_le legal
  refine ⟨_, encodeFrames nad m, run_txStart idle legal holds hi, if_neg (Nat.not_lt.mpr legal), ?_, rfl, rfl, rfl,
    toNat_ofNat_of_lt (by omega), toNat_ofNat_of_lt (by omega), rfl, fun _ => rfl, sameRx.refl s, rfl, rfl⟩
  have whole : (encodeFrames nad m).take (nframes m.length) = encodeFrames nad m :=
    List.take_of_length_le (by simp [encodeFrames])
  show s.linkOut ++ ((encodeFrames nad m).take (nframes m.length)).map packFrame = _
  rw [whole]

/-- Settles O55: the ports show registers and states; `ltx_frame` is `FrameK` of the slice's cells, packed. -/
theorem outputPortsShowState : Obligations.OutputPortsShowState := by
  refine ⟨fun s => ⟨rfl, rfl, ltxValid_iff s, lrxReady_iff s, rfl, rfl, rfl⟩, ?_⟩
  intro s m k sending legal len index hk cells
  rw [ltxFrame_eq_some_iff, frameDue_iff, len, index]
  exact ⟨sending, ⟨legal, hk⟩, _, frameK_of_cells s.txNad hk cells, rfl⟩

/-- Settles O56: the port shows the frame due, and that is the frame a step hands over, if it hands over any. -/
theorem offeredFrameIsTheOneSent : Obligations.OfferedFrameIsTheOneSent := by
  refine ⟨fun s rest p hi shown => ?_, fun s t h changed => ?_⟩
  · obtain ⟨sending, due, f, frame, rfl⟩ := (ltxFrame_eq_some_iff s p).mp shown
    exact ⟨_, step_ready_emits hi sending due frame, emitFrame_linkOut _ _⟩
  · obtain ⟨f, rest, hi, sending, due, frame, out⟩ := (step_linkOut h).resolve_left changed
    have shown := (ltxFrame_eq_some_iff s _).mpr ⟨sending, due, f, frame, rfl⟩
    exact ⟨rest, _, hi, (ltxValid_iff s).mpr sending, shown, out⟩

/-- Settles O57: each step leaves what the offered frame is made of, so it is still sending and the next step does too. -/
theorem offeredFrameHoldsUntilAccepted : Obligations.OfferedFrameHoldsUntilAccepted := by
  intro n s t sending quiet h
  have kept : sameOffer s t := by
    refine run_keeps (P := sameOffer s) (fun u v hu calm hv => ?_) n (sameOffer.refl s) quiet h
    have ⟨⟨txState, _⟩, _⟩ := hu
    exact hu.trans (step_sameOffer_of_sending (txState.trans sending) calm hv)
  obtain ⟨⟨state, -, -, len, nad, frame⟩, buf, out⟩ := kept
  exact ⟨(ltxValid_iff t).mpr (state.trans sending), ltxFrame_congr state len nad frame buf, out⟩

end Sys2Proof.Proofs

/-! The Reassembler on a whole message: what each frame of `Encode(nad, m)` leaves, one after the other
(spec/42_reassembler.md R165 to R178). -/

namespace Sys2Proof.Machine

/-! ## A Consecutive frame in order (R171) -/

theorem exec_cf_matching {s : State} {sn : BitVec 4} (nad : Byte) (d : DataArea) (h : s.rxState = .awaitCf)
    (seq : sn = s.rxSeq) (within : s.rxRemaining ≤ s.rxTotal) :
    exec (.cf nad sn d) s = .next (advanceRx (s.rxRemaining - BitVec.ofNat 12 (appendLen s))
      (storeRx (writePointer s) (unpad d (appendLen s)) s)) :=
  (byRxState_awaitCf _ _ h).trans ((if_pos seq).trans (if_pos within))

/-- Nothing remains exactly when the frame carried all that was left (R171). -/
theorem remaining_eq_zero_iff (s : State) :
    s.rxRemaining - BitVec.ofNat 12 (appendLen s) = 0#12 ↔ s.rxRemaining.toNat - appendLen s = 0 := by
  rw [← BitVec.toNat_inj, remaining_sub_appendLen, BitVec.toNat_ofNat, Nat.zero_mod]

/-! ## The bytes a frame of a message carries, as they are unpadded (R160) -/

theorem unpad_areaOf_pad {d : List Byte} (h : d.length ≤ 6) : unpad (areaOf (pad d)) d.length = d := by
  rw [unpad, areaOf_bytes (pad_length h), pad, List.take_left]

/-- Consecutive writes, one after the other, are the write of both. -/
theorem Memory.writeList_append (m : Memory) (i : Nat) (xs ys : List Byte) :
    Memory.writeList m i (xs ++ ys) = Memory.writeList (Memory.writeList m i xs) (i + xs.length) ys := by
  induction xs generalizing m i with
  | nil => rfl
  | cons x xs ih =>
    rw [List.length_cons, ← Nat.add_assoc, Nat.add_right_comm]
    exact ih _ _

/-! ## A short message -/

/-- The state `s` after the Single frame of the message `m`. -/
def singleState (s : State) (m : List Byte) : State := completeSingle (BitVec.ofNat 12 m.length) (storeRx 0 m s)

/-- The frame of a short message completes the read with it (R165). -/
theorem consume_encSF {s : State} {m : List Byte} (nad : Byte) (await : s.rxState = .awaitFs) (short : m.length ≤ 6) :
    consume (packFrame (encSF nad m.length m)) s = .next (singleState s m) := by
  have dl : (BitVec.ofNat 4 m.length).toNat = m.length := toNat_ofNat_of_lt (by omega)
  have total : (BitVec.ofNat 4 m.length).setWidth 12 = BitVec.ofNat 12 m.length := by
    apply BitVec.eq_of_toNat_eq
    rw [BitVec.toNat_setWidth, dl, BitVec.toNat_ofNat]
  rw [consume_packFrame, decodeFrame_encSF, exec_sf_legal nad _ await (by omega), dl, total, unpad_areaOf_pad short]
  rfl

/-! ## A long message -/

/-- The state `s` after the first `k` frames of the long message `m`, `k` at least 1. -/
def openedState (s : State) (m : List Byte) (k : Nat) : State :=
  { s with rxState := if m.length ≤ sliceStart k then .complete else .awaitCf
           rxTotal := BitVec.ofNat 12 m.length
           rxRemaining := BitVec.ofNat 12 (m.length - sliceStart k)
           rxSeq := seqOf k
           rxbuf := Memory.writeList s.rxbuf 0 (m.take (sliceStart k)) }

/-- Before the last frame some of the message is still to come. -/
theorem sliceStart_lt_length {len k : Nat} (long : 7 ≤ len) (hk : 1 ≤ k) (due : k < nframes len) :
    sliceStart k < len := by
  rw [nframes_of_long long] at due
  rw [sliceStart_of_pos hk]
  omega

/-- The First frame opens the message (R167). -/
theorem consume_encFF {s : State} {m : List Byte} (nad : Byte) (await : s.rxState = .awaitFs) (long : 7 ≤ m.length)
    (legal : m.length ≤ 4095) :
    consume (packFrame (encFF nad m.length (m.take 5))) s = .next (openedState s m 1) := by
  have dl : (BitVec.ofNat 12 m.length).toNat = m.length := toNat_ofNat_of_lt (by omega)
  have left : BitVec.ofNat 12 m.length - BitVec.ofNat 12 Config.ffData = BitVec.ofNat 12 (m.length - 5) := by
    apply BitVec.eq_of_toNat_eq
    simp only [BitVec.toNat_sub, BitVec.toNat_ofNat, Config.ffData]
    omega
  have more : ¬ m.length ≤ sliceStart 1 := show ¬ m.length ≤ 5 by omega
  rw [consume_packFrame, decodeFrame_encFF nad _ legal, exec_ff_legal nad _ await (by omega),
    firstOf_bytes (List.length_take_of_le (by omega)), openMessage, left, openedState, if_neg more]
  rfl

/-- The Consecutive frame due is the one expected: it goes on with the message (R171). -/
theorem consume_encCF {s : State} {m : List Byte} {k : Nat} (nad : Byte) (long : 7 ≤ m.length) (legal : m.length ≤ 4095)
    (hk : 1 ≤ k) (due : k < nframes m.length) :
    consume (packFrame (encCF nad k (sliceOf m k))) (openedState s m k) = .next (openedState s m (k + 1)) := by
  let u := openedState s m k
  have start := sliceStart_lt_length long hk due
  have next := sliceStart_succ hk
  have total : u.rxTotal.toNat = m.length := toNat_ofNat_of_lt (by omega)
  have remaining : u.rxRemaining.toNat = m.length - sliceStart k := toNat_ofNat_of_lt (by omega)
  have count : appendLen u = min 6 (m.length - sliceStart k) := by
    show min 6 u.rxRemaining.toNat = _
    rw [remaining]
  have length : (sliceOf m k).length = appendLen u := by rw [length_sliceOf due, sliceLen_of_pos long hk, count]
  have pointer : writePointer u = (m.take (sliceStart k)).length := by
    rw [writePointer, total, remaining, List.length_take]
    omega
  have left : u.rxRemaining - BitVec.ofNat 12 (appendLen u) = BitVec.ofNat 12 (m.length - sliceStart (k + 1)) := by
    apply BitVec.eq_of_toNat_eq
    rw [remaining_sub_appendLen, remaining, count, next, BitVec.toNat_ofNat]
    omega
  have done : BitVec.ofNat 12 (m.length - sliceStart (k + 1)) = 0#12 ↔ m.length ≤ sliceStart (k + 1) := by
    rw [← left, remaining_eq_zero_iff, remaining, count]
    omega
  have bytes : unpad (areaOf (pad (sliceOf m k))) (appendLen u) = sliceOf m k := by
    rw [← length]
    exact unpad_areaOf_pad (by rw [length]; exact (appendLen_le u).1)
  have cells : Memory.writeList u.rxbuf (writePointer u) (sliceOf m k) =
      Memory.writeList s.rxbuf 0 (m.take (sliceStart (k + 1))) := by
    rw [take_sliceStart_succ long hk, Memory.writeList_append, Nat.zero_add, ← pointer]
    rfl
  have await : u.rxState = .awaitCf := if_neg (Nat.not_le.mpr start)
  have within : u.rxRemaining ≤ u.rxTotal := BitVec.le_def.mpr (by omega)
  have expected : seqOf k = u.rxSeq := rfl
  rw [consume_packFrame, decodeFrame_encCF, exec_cf_matching nad _ await expected within, bytes, left]
  simp only [advanceRx, storeRx, cells, await, done]
  simp only [u, openedState, seqOf, BitVec.ofNat_add]

/-! ## All frames of a message -/

/-- The frames of a long message: the First frame, then the Consecutive ones in order (R136). -/
theorem encodeFrames_long (nad : Byte) {m : List Byte} (long : 7 ≤ m.length) :
    encodeFrames nad m = encFF nad m.length (m.take 5) ::
      (List.range' 1 (nframes m.length - 1)).map (fun k => encCF nad k (sliceOf m k)) := by
  obtain ⟨n, count⟩ := Nat.exists_eq_add_one.mpr (nframes_pos m.length)
  have head : some (frameOf nad m.length 0 (sliceOf m 0)) = some (encFF nad m.length (m.take 5)) :=
    (encodeFrames_getElem? nad (nframes_pos _)).symm.trans (encodeFrames_first nad long)
  rw [encodeFrames, count, List.range_eq_range', List.range'_succ, List.map_cons, Option.some.inj head]
  congr 1
  refine List.map_congr_left fun k hk => ?_
  have pos : k ≠ 0 := by
    rw [List.mem_range'_1] at hk
    omega
  exact (if_neg (show ¬ m.length ≤ 6 by omega)).trans (if_neg pos)

/-- The state `s` after all frames of the message `m`. -/
def receivedState (s : State) (m : List Byte) : State :=
  if m.length ≤ 6 then singleState s m else openedState s m (nframes m.length)

theorem receivedState_short {s : State} {m : List Byte} (short : m.length ≤ 6) : receivedState s m = singleState s m :=
  if_pos short

theorem receivedState_long {s : State} {m : List Byte} (long : 7 ≤ m.length) :
    receivedState s m = openedState s m (nframes m.length) :=
  if_neg (by omega)

/-- After all frames of a message the read is complete, with the message in `RXBUF` and the error code as before. -/
theorem receivedState_complete (s : State) {m : List Byte} (legal : m.length ≤ 4095) :
    (receivedState s m).rxState = .complete ∧ (receivedState s m).rxTotal.toNat = m.length ∧
    (receivedState s m).rxErr = s.rxErr ∧ (receivedState s m).rxbuf = Memory.writeList s.rxbuf 0 m := by
  have total : (BitVec.ofNat 12 m.length).toNat = m.length := toNat_ofNat_of_lt (by omega)
  by_cases short : m.length ≤ 6
  · rw [receivedState_short short]
    exact ⟨rfl, total, rfl, rfl⟩
  · have long : 7 ≤ m.length := by omega
    have whole := length_le_sliceStart_nframes long
    rw [receivedState_long long]
    refine ⟨if_pos whole, total, rfl, ?_⟩
    rw [openedState, List.take_of_length_le whole]

/-- What a read leaves of the rest of the block. -/
theorem receivedState_rest (s : State) (m : List Byte) :
    sameTx s (receivedState s m) ∧ sameResponse s (receivedState s m) ∧ sameEnv s (receivedState s m) := by
  rw [receivedState]
  split_ifs
  · exact receive_frame s _ _ _ _ _ _
  · exact receive_frame s _ _ _ _ _ _

theorem receivedState_holds (s : State) {m : List Byte} (legal : m.length ≤ 4095) : rxHolds (receivedState s m) m := by
  obtain ⟨-, -, -, buf⟩ := receivedState_complete s legal
  intro i hi
  rw [buf, Memory.read_writeList_zero, if_pos hi]

/-- The message of the completed read is the one sent (R175). -/
theorem message_receivedState (s : State) {m : List Byte} (legal : m.length ≤ 4095) :
    message (receivedState s m) = some m := by
  obtain ⟨-, total, -, -⟩ := receivedState_complete s legal
  rw [message, total, Memory.readRange_eq_some_iff]
  refine ⟨rfl, fun i hi => ?_⟩
  rw [Nat.zero_add, receivedState_holds s legal i hi]

/-! ## `Decode` of the frames (R176, R178) -/

theorem decodeFrom_cons {c : Nat} {s t : State} {f : Frame} (fs : List Frame) (ready : lrxReady s = true)
    (h : consume (packFrame f) s = .next t) : decodeFrom c s (f :: fs) = decodeFrom (c + 1) t fs := by
  rw [decodeFrom, if_pos ready, h]

theorem lrxReady_openedState {s : State} {m : List Byte} {k : Nat} (long : 7 ≤ m.length) (hk : 1 ≤ k)
    (due : k < nframes m.length) : lrxReady (openedState s m k) = true :=
  (lrxReady_iff _).mpr (.inr (if_neg (Nat.not_le.mpr (sliceStart_lt_length long hk due))))

/-- The Consecutive frames left of a long message, decoded one after the other. -/
theorem decodeFrom_openedState (s : State) {m : List Byte} (nad : Byte) (long : 7 ≤ m.length) (legal : m.length ≤ 4095)
    (n : Nat) {k : Nat} (hk : 1 ≤ k) (left : k + n = nframes m.length) (c : Nat) :
    decodeFrom c (openedState s m k) ((List.range' k n).map fun k => encCF nad k (sliceOf m k)) =
      readResult (c + n) (openedState s m (nframes m.length)) := by
  induction n generalizing k c with
  | zero =>
    rw [← left]
    rfl
  | succ n ih =>
    rw [List.range'_succ, List.map_cons, decodeFrom_cons _ (lrxReady_openedState long hk (by omega))
      (consume_encCF nad long legal hk (by omega)), ih (by omega) (by omega), Nat.add_assoc, Nat.add_comm 1 n]

/-- `Decode` of all frames of a message is the result of the completed read. -/
theorem decodeFrom_encodeFrames {s : State} {m : List Byte} (nad : Byte) (await : s.rxState = .awaitFs)
    (legal : m.length ≤ 4095) :
    decodeFrom 0 s (encodeFrames nad m) = readResult (nframes m.length) (receivedState s m) := by
  have ready : lrxReady s = true := (lrxReady_iff s).mpr (.inl await)
  by_cases short : m.length ≤ 6
  · rw [encodeFrames_single nad short, decodeFrom_cons [] ready (consume_encSF nad await short),
      show nframes m.length = 1 from if_pos short, receivedState_short short]
    rfl
  · have long : 7 ≤ m.length := by omega
    have pos := nframes_pos m.length
    rw [encodeFrames_long nad long, decodeFrom_cons _ ready (consume_encFF nad await long legal),
      decodeFrom_openedState s nad long legal _ le_rfl (by omega), receivedState_long long]
    congr 1
    omega

/-! ## The offers of the frames, step by step (R163, R178) -/

/-- A block with other inputs and other offers still to come. -/
def withOffers (ins : List Input) (offers : List PortFrame) (s : State) : State :=
  { s with inputs := ins, linkIn := offers }

theorem withOffers_singleState (ins : List Input) (offers : List PortFrame) (s : State) (m : List Byte) :
    withOffers ins offers (singleState s m) = singleState (withOffers ins offers s) m := rfl

theorem withOffers_openedState (ins : List Input) (offers : List PortFrame) (s : State) (m : List Byte) (k : Nat) :
    withOffers ins offers (openedState s m k) = openedState (withOffers ins offers s) m k := rfl

/-- The next frame offered is consumed. -/
theorem run_offer {s t : State} {f : Frame} {n : Nat} {ins : List Input} {offers : List PortFrame}
    (ready : lrxReady s = true)
    (h : consume (packFrame f) (withOffers ins offers s) = .next (withOffers ins offers t)) :
    run (n + 1) (withOffers (.linkOffer :: ins) (packFrame f :: offers) s) = run n (withOffers ins offers t) := by
  refine run_of_step ?_ n
  rw [← h]
  exact step_offer_ready rfl rfl ready

/-- The Consecutive frames left of a long message, offered one after the other. -/
theorem run_openedState (s : State) {m : List Byte} (nad : Byte) (long : 7 ≤ m.length) (legal : m.length ≤ 4095)
    (rest : List Input) (later : List PortFrame) (n : Nat) {k : Nat} (hk : 1 ≤ k) (left : k + n = nframes m.length) :
    run n (withOffers (List.replicate n .linkOffer ++ rest)
      (((List.range' k n).map fun k => encCF nad k (sliceOf m k)).map packFrame ++ later) (openedState s m k)) =
      .next (withOffers rest later (openedState s m (nframes m.length))) := by
  induction n generalizing k with
  | zero =>
    rw [← left]
    rfl
  | succ n ih =>
    rw [List.range'_succ]
    refine Eq.trans (run_offer (t := openedState s m (k + 1)) (lrxReady_openedState long hk (by omega)) ?_)
      (ih (by omega) (by omega))
    rw [withOffers_openedState, withOffers_openedState]
    exact consume_encCF nad long legal hk (by omega)

/-- As many offers as there are frames receive the whole message. -/
theorem run_encodeFrames {s : State} {m : List Byte} (nad : Byte) (await : s.rxState = .awaitFs)
    (legal : m.length ≤ 4095) (rest : List Input) (later : List PortFrame) :
    run (nframes m.length) (withOffers (List.replicate (nframes m.length) .linkOffer ++ rest)
      ((encodeFrames nad m).map packFrame ++ later) s) = .next (receivedState (withOffers rest later s) m) := by
  have ready : lrxReady s = true := (lrxReady_iff s).mpr (.inl await)
  by_cases short : m.length ≤ 6
  · rw [encodeFrames_single nad short, show nframes m.length = 1 from if_pos short, receivedState_short short]
    refine run_offer (n := 0) (t := singleState s m) ready ?_
    rw [withOffers_singleState]
    exact consume_encSF nad await short
  · have long : 7 ≤ m.length := by omega
    obtain ⟨n, count⟩ := Nat.exists_eq_add_one.mpr (nframes_pos m.length)
    rw [encodeFrames_long nad long, receivedState_long long, count, Nat.add_sub_cancel]
    refine Eq.trans (run_offer (t := openedState s m 1) ready ?_) ?_
    · rw [withOffers_openedState]
      exact consume_encFF nad await long legal
    · rw [← count, ← withOffers_openedState]
      exact run_openedState s nad long legal rest later n le_rfl (by omega)

end Sys2Proof.Machine

/-! What two reads have in common that began in different states (spec/42_reassembler.md section 3). -/

namespace Sys2Proof.Machine

/-- Two states of a read that nothing of the read itself tells apart: all that the Reassembler goes on with agrees. -/
inductive SameRead (s t : State) : Prop where
  | awaitFs (hs : s.rxState = .awaitFs) (ht : t.rxState = .awaitFs)
  | awaitCf (hs : s.rxState = .awaitCf) (ht : t.rxState = .awaitCf) (total : t.rxTotal = s.rxTotal)
      (remaining : t.rxRemaining = s.rxRemaining) (seq : t.rxSeq = s.rxSeq)
      (cells : ∀ i < writePointer s, Memory.read t.rxbuf i = Memory.read s.rxbuf i)
  | complete (hs : s.rxState = .complete) (ht : t.rxState = .complete) (total : t.rxTotal = s.rxTotal)
      (cells : ∀ i < s.rxTotal.toNat, Memory.read t.rxbuf i = Memory.read s.rxbuf i)
  | failed (hs : s.rxState = .failed) (ht : t.rxState = .failed) (err : t.rxErr = s.rxErr)

/-- Two outcomes of a frame that the read does not tell apart. -/
inductive SameOutcome : Host.Outcome State Fault Refusal → Host.Outcome State Fault Refusal → Prop where
  | next {s t : State} (same : SameRead s t) : SameOutcome (.next s) (.next t)
  | fault (f : Fault) : SameOutcome (.fault f) (.fault f)

/-- Writes at the end of what two buffers agree on extend it. -/
theorem writeList_agree {m n : Memory} {i j : Nat} {vs : List Byte} (agree : ∀ j < i, Memory.read n j = Memory.read m j)
    (hj : j < i + vs.length) : Memory.read (Memory.writeList n i vs) j = Memory.read (Memory.writeList m i vs) j := by
  rw [Memory.read_writeList, Memory.read_writeList]
  split_ifs with inside
  · rfl
  · exact agree j (by omega)

theorem framingError_same (s t : State) : SameOutcome (framingError s) (framingError t) := .next (.failed rfl rfl rfl)

theorem takeSingle_same (dl : BitVec 4) (d : DataArea) (s t : State) :
    SameOutcome (takeSingle dl d s) (takeSingle dl d t) := by
  rw [takeSingle, takeSingle]
  split_ifs with legal
  · rw [legalSingle_iff] at legal
    have length : (unpad d dl.toNat).length = (dl.setWidth 12).toNat := by
      rw [unpad_length, BitVec.toNat_setWidth]
      omega
    refine .next (.complete rfl rfl rfl fun i hi => writeList_agree (m := s.rxbuf) (n := t.rxbuf) nofun ?_)
    rw [length, Nat.zero_add]
    exact hi
  · exact framingError_same s t

theorem takeFirst_same (dl : BitVec 12) (d : FirstData) (s t : State) :
    SameOutcome (takeFirst dl d s) (takeFirst dl d t) := by
  rw [takeFirst, takeFirst]
  split_ifs with legal
  · rw [legalFirst_iff] at legal
    refine .next (.awaitCf rfl rfl rfl rfl rfl fun i hi => writeList_agree (m := s.rxbuf) (n := t.rxbuf) nofun ?_)
    have pointer : i < dl.toNat - (dl - 5#12).toNat := hi
    rw [BitVec.toNat_sub_of_le (show 5 ≤ dl.toNat by omega), BitVec.toNat_ofNat] at pointer
    rw [firstBytes_length]
    omega
  · exact framingError_same s t

theorem appendConsecutive_same {s t : State} (d : DataArea) (hs : s.rxState = .awaitCf) (ht : t.rxState = .awaitCf)
    (total : t.rxTotal = s.rxTotal) (remaining : t.rxRemaining = s.rxRemaining) (seq : t.rxSeq = s.rxSeq)
    (cells : ∀ i < writePointer s, Memory.read t.rxbuf i = Memory.read s.rxbuf i) :
    SameOutcome (appendConsecutive d s) (appendConsecutive d t) := by
  have pointer : writePointer t = writePointer s := by rw [writePointer, writePointer, total, remaining]
  have count : appendLen t = appendLen s := by rw [appendLen, appendLen, remaining]
  rw [appendConsecutive, appendConsecutive, total, remaining, pointer, count]
  split_ifs with within
  · have atMost : s.rxRemaining.toNat ≤ s.rxTotal.toNat := BitVec.le_def.mp within
    have start : writePointer s = s.rxTotal.toNat - s.rxRemaining.toNat := rfl
    have written {i : Nat} (hi : i < writePointer s + appendLen s) :
        Memory.read (Memory.writeList t.rxbuf (writePointer s) (unpad d (appendLen s))) i =
          Memory.read (Memory.writeList s.rxbuf (writePointer s) (unpad d (appendLen s))) i :=
      writeList_agree cells (by rwa [unpad_appendLen_length])
    have left := remaining_sub_appendLen s
    have few := (appendLen_le s).2
    by_cases last : s.rxRemaining - BitVec.ofNat 12 (appendLen s) = 0#12
    · refine .next (.complete (if_pos last) (if_pos last) total fun i hi => written ?_)
      have noneLeft := (remaining_eq_zero_iff s).mp last
      have inside : i < s.rxTotal.toNat := hi
      omega
    · refine .next (.awaitCf ((if_neg last).trans hs) ((if_neg last).trans ht) total rfl (congrArg (· + 1#4) seq)
        fun i hi => written ?_)
      have inside : i < s.rxTotal.toNat - (s.rxRemaining - BitVec.ofNat 12 (appendLen s)).toNat := hi
      omega
  · exact .fault _

/-- A frame does the same in two states the read does not tell apart, if its two meanings do. -/
theorem byRxState_same {s t : State} {inFs inCf : State → Host.Outcome State Fault Refusal} (h : SameRead s t)
    (hFs : SameOutcome (inFs s) (inFs t)) (hCf : s.rxState = .awaitCf → SameOutcome (inCf s) (inCf t)) :
    SameOutcome (byRxState inFs inCf s) (byRxState inFs inCf t) := by
  have same := h
  cases h with
  | awaitFs hs ht => rwa [byRxState_awaitFs _ _ hs, byRxState_awaitFs _ _ ht]
  | awaitCf hs ht => rw [byRxState_awaitCf _ _ hs, byRxState_awaitCf _ _ ht]; exact hCf hs
  | complete hs ht => rw [byRxState_ended _ _ (.inl hs), byRxState_ended _ _ (.inl ht)]; exact .next same
  | failed hs ht => rw [byRxState_ended _ _ (.inr hs), byRxState_ended _ _ (.inr ht)]; exact .next same

theorem takeConsecutive_same {s t : State} (sn : BitVec 4) (d : DataArea) (h : SameRead s t) (hs : s.rxState = .awaitCf) :
    SameOutcome (takeConsecutive sn d s) (takeConsecutive sn d t) := by
  cases h with
  | awaitCf _ ht total remaining seq cells =>
    rw [takeConsecutive, takeConsecutive, seq]
    split_ifs
    · exact appendConsecutive_same d hs ht total remaining seq cells
    · exact .next (.failed rfl rfl rfl)
  | awaitFs other | complete other | failed other => cases hs.symm.trans other

/-- A frame does the same in two states the read does not tell apart. -/
theorem consume_same {s t : State} (f : Frame) (h : SameRead s t) :
    SameOutcome (consume (packFrame f) s) (consume (packFrame f) t) := by
  by_cases h0 : pciType f.pci = 0#4
  · rw [consume_single s h0, consume_single t h0]
    exact byRxState_same h (takeSingle_same _ _ s t) fun _ => framingError_same s t
  by_cases h1 : pciType f.pci = 1#4
  · rw [consume_first s h1, consume_first t h1]
    exact byRxState_same h (takeFirst_same _ _ s t) fun _ => framingError_same s t
  by_cases h2 : pciType f.pci = 2#4
  · rw [consume_consecutive s h2, consume_consecutive t h2]
    exact byRxState_same h (framingError_same s t) (takeConsecutive_same _ _ h)
  · rw [consume_reserved s h0 h1 h2, consume_reserved t h0 h1 h2]
    exact byRxState_same h (framingError_same s t) fun _ => framingError_same s t

theorem SameRead.lrxReady {s t : State} (h : SameRead s t) : lrxReady t = lrxReady s := by
  cases h with
  | awaitFs hs ht | awaitCf hs ht | complete hs ht | failed hs ht => rw [Machine.lrxReady, Machine.lrxReady, hs, ht]

/-- Buffers that agree on a range of cells read alike there. -/
theorem Memory.readRange_congr {m n : Memory} {len : Nat} (h : ∀ i < len, Memory.read n i = Memory.read m i) :
    Memory.readRange n 0 len = Memory.readRange m 0 len := by
  apply Option.ext
  intro d
  rw [Memory.readRange_eq_some_iff, Memory.readRange_eq_some_iff]
  refine and_congr_right fun _ => forall₂_congr fun i hi => ?_
  rw [Nat.zero_add, h i hi]

/-- A read's result is the same from two states it does not tell apart (R175). -/
theorem SameRead.readResult {s t : State} (h : SameRead s t) (c : Nat) : readResult c t = readResult c s := by
  cases h with
  | awaitFs hs ht | awaitCf hs ht => rw [Machine.readResult, Machine.readResult, hs, ht]
  | complete hs ht total cells =>
    have same : message t = message s := by
      rw [message, message, total]
      exact Memory.readRange_congr cells
    rw [Machine.readResult, Machine.readResult, hs, ht, same]
  | failed hs ht err => rw [Machine.readResult, Machine.readResult, hs, ht, err]

/-- `Decode` is the same from two states the read does not tell apart (R176). -/
theorem SameRead.decodeFrom {s t : State} (h : SameRead s t) (c : Nat) (fs : List Frame) :
    decodeFrom c t fs = decodeFrom c s fs := by
  induction fs generalizing c s t with
  | nil => exact h.readResult c
  | cons f fs ih =>
    rw [Machine.decodeFrom, Machine.decodeFrom, h.lrxReady, h.readResult]
    split_ifs with ready
    · have outcomes := consume_same f h
      generalize consume (packFrame f) s = a at outcomes ⊢
      generalize consume (packFrame f) t = b at outcomes ⊢
      cases outcomes with
      | next same => exact ih same (c + 1)
      | fault => rfl
    · rfl

end Sys2Proof.Machine

/-! The obligations on Consecutive frames and on whole reads. -/

namespace Sys2Proof.Proofs

open Sys2Proof.Machine

/-- Settles O37: the registers by computation without borrow, the cells by a read after the write at the write pointer. -/
theorem matchingConsecutiveFrameAppends : Obligations.MatchingConsecutiveFrameAppends := by
  rintro s nad sn d n await seq within rfl
  refine ⟨_, exec_cf_matching nad d await seq (BitVec.le_def.mpr within), remaining_sub_appendLen s,
    BitVec.toNat_add _ _, ?_, rfl, rfl, fun i => ?_, receive_frame s _ _ _ _ _ _⟩
  · rw [advanceRx_rxState, storeRx_rxState, await]
    exact if_congr (remaining_eq_zero_iff s) rfl rfl
  · rw [advanceRx_rxbuf, storeRx_rxbuf, Memory.read_writeList, unpad_appendLen_length]
    have pointer : writePointer s = s.rxTotal.toNat - s.rxRemaining.toNat := rfl
    have count : appendLen s = min 6 s.rxRemaining.toNat := rfl
    refine ite_congr rfl (fun inside => ?_) fun _ => rfl
    exact unpad_getElem? d (by omega)

/-- Settles O41: in `AWAIT_FS` a read goes on with nothing but the state itself. -/
theorem decodeIgnoresEarlierReads : Obligations.DecodeIgnoresEarlierReads :=
  fun _ _ fs hs ht => (SameRead.awaitFs ht hs).decodeFrom 0 fs

/-- Settles O42: the frames, decoded one after the other, end in the completed read of the message. -/
theorem decodeOfEncodeIsComplete : Obligations.DecodeOfEncodeIsComplete := by
  intro s nad m await legal
  refine ⟨encodeFrames nad m, if_neg (Nat.not_lt.mpr legal), ?_⟩
  rw [decodeFrom_encodeFrames nad await legal, readResult, (receivedState_complete s legal).1,
    message_receivedState s legal]

/-- Settles O43: the sender's run hands over the frames of `Encode(nad, m)`, and the receiver's run consumes them all. -/
theorem loopbackReconstructsMessage : Obligations.LoopbackReconstructsMessage := by
  intro s t u m nad rest rest' later idle legal holds hi sent await offers hu
  obtain ⟨t', fs, sent', encoded, out, -⟩ := transmitRunEmitsEncodeInOrder s m nad rest idle legal holds hi
  cases sent.symm.trans sent'
  cases encoded.symm.trans (if_neg (Nat.not_lt.mpr legal))
  rw [out, List.drop_left] at offers
  have received := run_encodeFrames nad await legal rest' later
  rw [← offers, ← hu] at received
  let v := withOffers rest' later u
  obtain ⟨complete, total, err, -⟩ := receivedState_complete v legal
  obtain ⟨tx, response, inputs, linkIn, -⟩ := receivedState_rest v m
  exact ⟨_, received, complete, total, err, receivedState_holds v legal, message_receivedState v legal, linkIn, inputs,
    tx, response⟩

end Sys2Proof.Proofs
